-- ==== Sys2Proof/Word.lean ====
section
/-! DEFINITION. The word types of RCSW-CORE and the level of a line (spec/00_scope.md R8, R10; spec/30_encoding.md R90). -/

namespace Sys2Proof

/-- A format H host command word, 64 bits (R90, R91). -/
abbrev HostWord := BitVec 64

/-- A format U internal micro-operation code, 4 bits (R100). -/
abbrev MicroCode := BitVec 4

/-- A 32-bit microsecond quantity: a timestamp of the Port's timebase or an interval (R105, R35). -/
abbrev Micros := BitVec 32

/-- A pin identifier, opaque to the block and passed to the Port unchanged (R7 `PIN`, R92). -/
abbrev Pin := BitVec 32

/-- The two levels of a line (R10); the block treats them as symbols. -/
inductive Level where
  | low
  | high
deriving DecidableEq, Repr, Inhabited

end Sys2Proof
end

