-- ==== Sys2Proof/Config.lean ====
section
/-! DEFINITION. What is fixed for the block: the implementation parameters of spec/00_scope.md R7, the read-only preset
table `PRESET` of spec/10_state.md R30, and the values the spec leaves open, as opaque constants. -/

namespace Sys2Proof.Config

/-- Default of the ring-buffer capacity `CAP` (R7, D14). The model carries `CAP` in `State.cap`, so that every
statement is about any capacity; log entry 5. -/
def capDefault : Nat := 67

/-- `GAP_NORMAL`, µs (R7). -/
def gapNormal : Nat := 5000

/-- `GAP_LONG`, µs (R7). -/
def gapLong : Nat := 100000

/-- `SYNC_UNITS_RX`, the divisor of the sync gap (R7, R201). -/
def syncUnitsRx : Nat := 31

/-- `MIN_EDGES_HANDOFF`, the least change count of a handoff (R7, R176). -/
def minEdgesHandoff : Nat := 21

/-- `MIN_INTERVALS_COMMIT`: a frame is committed only if its length exceeds this (R7, R208). -/
def minIntervalsCommit : Nat := 47

/-- `TOL_DEFAULT`, percent (R7). -/
def tolDefault : BitVec 8 := 60

/-- `RPT_MAX`, the saturation value of the repeat counter (R7, R39). -/
def rptMax : Nat := 255

/-- `TX_TIMING_TOL`, µs: OPEN in the spec (R7, D41), so a constant without a value; log entry 16. -/
opaque txTimingTol : Nat

/-- The level of a physical transmit line before the block's first pulse on it: the platform's, any value
(R321, spec/93_implementation_defined.md); log entry 17. -/
opaque lineBeforeFirstPulse : Pin → Level

/-- What `RES_RAWLEN` holds after the commit of a frame of 256 intervals or more, which its 8 bits cannot hold: the
spec states no value (R43 gives the width, R230 that the length fits at `CAP = 67`); log entry 6. -/
opaque rawLenTooLong : Nat → BitVec 8

/-- What `RES_BITLEN` holds after the commit of a frame of 256 bits or more, which its 8 bits cannot hold: the spec
states no value (R42); log entry 6. -/
opaque bitLenTooLong : Nat → BitVec 8

/-- Whether an empty burst with both an unsupported protocol and `REPEAT = 0` is named by event 4 (true) or event 10
(false): R282 orders the checks only as range, pin, empty burst; log entry 8. -/
opaque emptyBurstNamesProtocol : Bool

/-- A row of the preset table `PRESET`: six multipliers and a default pulse length in µs (R30). -/
structure Preset where
  zeroHigh : Nat
  zeroLow : Nat
  oneHigh : Nat
  oneLow : Nat
  syncHigh : Nat
  syncLow : Nat
  defaultPlen : BitVec 32
deriving DecidableEq, Repr

/-- The row of protocol id 1 (R30). -/
def preset1 : Preset :=
  { zeroHigh := 1, zeroLow := 3, oneHigh := 3, oneLow := 1, syncHigh := 1, syncLow := 31, defaultPlen := 350 }

/-- The row of protocol id 2 (R30). -/
def preset2 : Preset :=
  { zeroHigh := 1, zeroLow := 2, oneHigh := 2, oneLow := 1, syncHigh := 1, syncLow := 10, defaultPlen := 650 }

/-- `PRESET(id)`: a row for ids 1 and 2 and `NONE` for every other id (R30). -/
def preset (id : BitVec 16) : Option Preset :=
  if id = 1 then some preset1 else if id = 2 then some preset2 else none

end Sys2Proof.Config
end

