-- ==== Sys2Proof/Syntax.lean ====
section
/-! DEFINITION. The operations of RCSW-CORE: one constructor of `Instr` for each row of spec/opcode_table.json
(12 host commands, 9 internal micro-operations, the edge event), the three word formats that carry them
(spec/30_encoding.md R90), and the assembler's pseudo-operations (R110). -/

namespace Sys2Proof

/-- The three operation formats (spec/30_encoding.md R90). -/
inductive Format where
  | host
  | micro
  | edge
deriving DecidableEq, Repr

/-- One operation as the block receives it: a format H word on the command port, a format U code issued inside the
block, or a format E timestamp delivered by the Port (R90). -/
inductive Code where
  | host (w : HostWord)
  | micro (u : MicroCode)
  | edge (t : Micros)
deriving DecidableEq, Repr

/-- The format that carries a code. -/
def Code.format : Code → Format
  | .host _ => .host
  | .micro _ => .micro
  | .edge _ => .edge

/-- The operations of RCSW-CORE, one constructor per row of spec/opcode_table.json. A bit length and a symbol count
are naturals (R92: operands are unsigned); `Instr.wellFormed` says which of them a word can carry. -/
inductive Instr where
  /-- SET_TX_PIN (R250). -/
  | setTxPin (pin : Pin)
  /-- SET_PROTOCOL (R251). -/
  | setProtocol (id : BitVec 16)
  /-- SET_PROTOCOL_PL (R252). -/
  | setProtocolPl (id : BitVec 16) (pulseUs : BitVec 32)
  /-- SET_REPEAT (R253). -/
  | setRepeat (count : BitVec 32)
  /-- SET_RX_TOLERANCE (R254). -/
  | setRxTolerance (percent : BitVec 8)
  /-- TX_CODE (R147). -/
  | txCode (value : BitVec 32) (len : Nat)
  /-- TX_TRISTATE (R148). -/
  | txTristate (packed : BitVec 32) (count : Nat)
  /-- RX_ENABLE (R255). -/
  | rxEnable (pin : Pin)
  /-- RX_DISABLE (R256). -/
  | rxDisable
  /-- RX_AVAILABLE (R231). -/
  | rxAvailable
  /-- RX_TAKE (R232). -/
  | rxTake
  /-- RX_CLEAR (R233). -/
  | rxClear
  /-- EMIT_BIT0 (R120). -/
  | emitBit0
  /-- EMIT_BIT1 (R121). -/
  | emitBit1
  /-- EMIT_SYNC (R122). -/
  | emitSync
  /-- EMIT_SYM_ZERO (R123). -/
  | emitSymZero
  /-- EMIT_SYM_FLOAT (R124). -/
  | emitSymFloat
  /-- EMIT_SYM_10 (R126). -/
  | emitSym10
  /-- EMIT_SYM_ONE (R125). -/
  | emitSymOne
  /-- DECODE (R200). -/
  | decode
  /-- COMMIT (R230). -/
  | commit
  /-- EDGE (R174). -/
  | edge (t : Micros)
deriving DecidableEq, Repr

/-- The format in which spec/opcode_table.json lists an operation. -/
def Instr.format : Instr → Format
  | .setTxPin _ | .setProtocol _ | .setProtocolPl _ _ | .setRepeat _ | .setRxTolerance _ => .host
  | .txCode _ _ | .txTristate _ _ => .host
  | .rxEnable _ | .rxDisable | .rxAvailable | .rxTake | .rxClear => .host
  | .emitBit0 | .emitBit1 | .emitSync | .emitSymZero | .emitSymFloat | .emitSym10 | .emitSymOne => .micro
  | .decode | .commit => .micro
  | .edge _ => .edge

/-- The mnemonic of an operation in spec/opcode_table.json. -/
def Instr.mnemonic : Instr → String
  | .setTxPin _ => "SET_TX_PIN"
  | .setProtocol _ => "SET_PROTOCOL"
  | .setProtocolPl _ _ => "SET_PROTOCOL_PL"
  | .setRepeat _ => "SET_REPEAT"
  | .setRxTolerance _ => "SET_RX_TOLERANCE"
  | .txCode _ _ => "TX_CODE"
  | .txTristate _ _ => "TX_TRISTATE"
  | .rxEnable _ => "RX_ENABLE"
  | .rxDisable => "RX_DISABLE"
  | .rxAvailable => "RX_AVAILABLE"
  | .rxTake => "RX_TAKE"
  | .rxClear => "RX_CLEAR"
  | .emitBit0 => "EMIT_BIT0"
  | .emitBit1 => "EMIT_BIT1"
  | .emitSync => "EMIT_SYNC"
  | .emitSymZero => "EMIT_SYM_ZERO"
  | .emitSymFloat => "EMIT_SYM_FLOAT"
  | .emitSym10 => "EMIT_SYM_10"
  | .emitSymOne => "EMIT_SYM_ONE"
  | .decode => "DECODE"
  | .commit => "COMMIT"
  | .edge _ => "EDGE"

/-- The seven micro-operations that the Pulse Encoder executes (R101). -/
inductive EncOp where
  | bit0
  | bit1
  | sync
  | symZero
  | symFloat
  | sym10
  | symOne
deriving DecidableEq, Repr

/-- The instruction that an encoder micro-operation is. -/
def EncOp.instr : EncOp → Instr
  | .bit0 => .emitBit0
  | .bit1 => .emitBit1
  | .sync => .emitSync
  | .symZero => .emitSymZero
  | .symFloat => .emitSymFloat
  | .sym10 => .emitSym10
  | .symOne => .emitSymOne

/-- The tri-state symbols of the source: '0', 'F' and '1' (R98). -/
inductive Symbol where
  | zero
  | float
  | one
deriving DecidableEq, Repr

/-- The pseudo-operations of the assembler (R110). -/
inductive Pseudo where
  /-- `TX_TRISTATE "s"`, the string form. -/
  | txTristateString (s : List Symbol)
  /-- `RX_READ_CLEAR pin`. -/
  | rxReadClear (pin : Pin)
  /-- `TRANSMIT value, len, count`. -/
  | transmit (value : BitVec 32) (len : Nat) (count : BitVec 32)
  /-- `SET_PROTOCOL id, pulse_us`. -/
  | setProtocolTwo (id : BitVec 16) (pulseUs : BitVec 32)
deriving DecidableEq, Repr

end Sys2Proof
end

