-- ==== Sys2Proof/Machine/State.lean ====
section
/-! DEFINITION. The state of RCSW-CORE (spec/10_state.md R20 to R48), the inputs it has yet to take, the observation of a
run (spec/70_reset_and_hazards.md R324), and its reset value (R320). INVENTORY.md lists every field with its rule. -/

namespace Sys2Proof.Machine

open Sys2Proof

/-- One transmitted pulse: a level held for a nominal duration in µs, a natural because the product of R31 is exact. -/
structure Pulse where
  level : Level
  duration : Nat
deriving DecidableEq, Repr

/-- `TXPIN`, register 0x00 (R21). -/
structure TxPin where
  valid : Bool
  pin : Pin
deriving DecidableEq, Repr

/-- `RXCTL`, register 0x05 (R26). -/
structure RxCtl where
  en : Bool
  live : Bool
  pin : Pin
deriving DecidableEq, Repr

/-- The classifier registers `TIMINGS`, `CC`, `LAST_T` and `RPT`, registers 0x10 to 0x13 (R35 to R39). `timings` has
`State.cap` entries. -/
structure Classifier where
  timings : List Micros
  cc : Nat
  lastT : Micros
  rpt : BitVec 8
deriving DecidableEq, Repr

/-- The result latch, registers 0x20 to 0x26 (R41 to R43). `raw` is `RES_RAW[0..CAP-1]`, all `State.cap` entries. -/
structure Latch where
  avail : Bool
  value : BitVec 32
  bitLen : BitVec 8
  delay : Micros
  proto : BitVec 16
  rawLen : BitVec 8
  raw : List Micros
deriving DecidableEq, Repr

/-- `TXSEQ`, register 0x30 (R45). -/
structure TxSeq where
  busy : Bool
  susp : Bool
  pos : Nat
  pulses : List Pulse
deriving DecidableEq, Repr

/-- An accepted decode, which is what DECODE passes to COMMIT (R207, R230); the length `n` is `frame.length`. -/
structure Accepted where
  value : BitVec 32
  bitLen : Nat
  delay : Micros
  frame : List Micros
deriving DecidableEq, Repr

/-- What the environment does next: a code arrives, or the HOST agent's turn goes to the transmit sequencer (R12, R77).
The list of inputs is the interleaving of the two agents; log entry 1. -/
inductive Input where
  | code (c : Code)
  | turn
deriving DecidableEq, Repr

/-- A call on the platform Port, with what it was given or, for `nowMicroseconds`, what it returned (R300). -/
inductive PortCall where
  | configureOutput (pin : Pin)
  | configureInput (pin : Pin)
  | writeLevel (pin : Pin) (level : Level)
  | delayMicroseconds (n : Nat)
  | nowMicroseconds (t : Micros)
  | registerEdgeCallback (pin : Pin)
  | unregisterEdgeCallback (pin : Pin)
deriving DecidableEq, Repr

/-- A response to a host command (R96); `result` is the Decoded Result record of RX_TAKE. -/
inductive Response where
  | none
  | avail (b : Bool)
  | result (value : BitVec 32) (bitLength : BitVec 8) (delay : Micros) (protocolId : BitVec 16) (rawLen : BitVec 8)
      (raw : List Micros)
deriving DecidableEq, Repr

/-- The silent events of R280, in the order of their codes 1 to 10; a trace only, no state of the block (R281). -/
inductive Event where
  | malformedFrame
  | bufferOverflow
  | noTransmitPin
  | unknownProtocol
  | spuriousNoise
  | belowCommitGate
  | repeatNotConfirmed
  | operandOutOfRange
  | reservedCommandWord
  | emptyRepeat
deriving DecidableEq, Repr

/-- The state of RCSW-CORE. The first block is the registers of R20, the second the parameter `CAP`, the third the
model's own fields: the operands DECODE passes to COMMIT (log entry 4), the inputs yet to be taken (log entry 1), and
the observation of the run (R324, R281). -/
structure State where
  txPin : TxPin
  proto : BitVec 16
  plen : BitVec 32
  repeatCount : BitVec 32
  rxTol : BitVec 8
  rxCtl : RxCtl
  cls : Classifier
  latch : Latch
  seq : TxSeq
  txLevel : Level
  cap : Nat
  commitArgs : Accepted
  inputs : List Input
  portLog : List PortCall
  responses : List Response
  events : List Event
deriving DecidableEq, Repr

/-- Why a step stops. Neither is reached from reset on inputs that the spec's two agents can give. -/
inductive Fault where
  /-- Raised by `step` when the inputs hold an internal issue of a reserved micro-operation code, which
  spec/93_implementation_defined.md makes a modelling error. Safe: no rule of the block issues one. -/
  | reservedMicroOp (u : MicroCode)
  /-- Raised by the sequencer when a burst is in progress with `POS` past the end of `PULSES`: no rule gives that state
  a step (R145, R146). Safe: `POS` never passes the end (R45). -/
  | sequencerOverrun
deriving DecidableEq, Repr

/-- Why an operation has no meaning. No arm of `exec` uses it. -/
inductive Refusal where
  /-- Raised by an arm of `exec` for an operation that has no meaning yet. Safe: the machine stops. -/
  | notModelled (mnemonic : String)
deriving DecidableEq, Repr

/-- The reset state (R320): every register at the value of R20's table. The model's own fields are empty or zero, and
`CAP` has its default. Reset makes no Port call (R321). -/
def State.reset : State :=
  { txPin := { valid := false, pin := 0 }
    proto := 1
    plen := 350
    repeatCount := 10
    rxTol := Config.tolDefault
    rxCtl := { en := false, live := false, pin := 0 }
    cls := { timings := List.replicate Config.capDefault 0, cc := 0, lastT := 0, rpt := 0 }
    latch :=
      { avail := false, value := 0, bitLen := 0, delay := 0, proto := 0, rawLen := 0
        raw := List.replicate Config.capDefault 0 }
    seq := { busy := false, susp := false, pos := 0, pulses := [] }
    txLevel := .low
    cap := Config.capDefault
    commitArgs := { value := 0, bitLen := 0, delay := 0, frame := [] }
    inputs := []
    portLog := []
    responses := []
    events := [] }

end Sys2Proof.Machine
end

