-- ==== Sys2Proof/Machine/Flags.lean ====
section
/-! DEFINITION. The one status flag of the block, `AVAIL` (spec/10_state.md R41), and the saturating repeat counter
`RPT` (R39). The block has no condition codes (R20). -/

namespace Sys2Proof.Machine

open Sys2Proof

/-- `AVAIL <- 1`, by COMMIT only (R41, R230). -/
def Latch.setAvail (l : Latch) : Latch := { l with avail := true }

/-- `AVAIL <- 0`, by RX_CLEAR only (R41, R233); no other field of the latch changes. -/
def Latch.clearAvail (l : Latch) : Latch := { l with avail := false }

/-- `sat_inc(RPT, RPT_MAX)` (spec/00_scope.md R9, R39). -/
def satInc (rpt : BitVec 8) : BitVec 8 := BitVec.ofNat 8 (min (rpt.toNat + 1) Config.rptMax)

end Sys2Proof.Machine
end

