-- ==== Sys2Proof/Machine/Operands.lean ====
section
/-! DEFINITION. The explicit and implicit operands of the operations: the effective protocol record (spec/10_state.md
R31), the bits of a code and the symbols of a tri-state word (spec/30_encoding.md R98), the interval of an edge
(spec/42_edge_classifier.md R171) and the closed frame that DECODE reads (R176). -/

namespace Sys2Proof.Machine

open Sys2Proof

/-- The effective Protocol Parameters record of R31. -/
structure Params where
  id : BitVec 16
  plen : BitVec 32
  mult : Config.Preset
deriving DecidableEq, Repr

/-- The record in force: `NONE` when `PROTO` selects no preset (R31). -/
def State.params (s : State) : Option Params :=
  (Config.preset s.proto).map fun m => { id := s.proto, plen := s.plen, mult := m }

/-- The duration of a pulse with multiplier `m`: `m × PLEN` µs, exact (R31). -/
def Params.duration (p : Params) (m : Nat) : Nat := m * p.plen.toNat

/-- `bitop(V, i)` (spec/41_transmission_controller.md R142). -/
def bitOp (v : BitVec 32) (i : Nat) : EncOp := if v.getLsbD i then .bit1 else .bit0

/-- The symbol micro-operation of a two-bit symbol code, `U = 0b01ss` (R98, R101). -/
def symbolOp (ss : BitVec 2) : EncOp :=
  match ss.toNat with
  | 0b00 => .symZero
  | 0b01 => .symFloat
  | 0b10 => .sym10
  | _ => .symOne

/-- Symbol `k` of a word of `c` packed symbols, the first in the most significant pair (R98). -/
def symbolAt (packed : BitVec 32) (c k : Nat) : BitVec 2 := packed.extractLsb' (2 * (c - 1 - k)) 2

/-- `frame_ops(V, L)`: bits `L-1` down to 0, then the sync (R142). -/
def codeFrameOps (v : BitVec 32) (len : Nat) : List EncOp :=
  ((List.range len).reverse.map (bitOp v)) ++ [.sync]

/-- The micro-operation view of a tri-state word of `c` symbols: symbols `0` up to `c-1`, then the sync (R148). -/
def tristateFrameOps (packed : BitVec 32) (c : Nat) : List EncOp :=
  ((List.range c).map fun k => symbolOp (symbolAt packed c k)) ++ [.sync]

/-- The interval of a delivered edge, `(t - LAST_T) mod 2^32` (R171). -/
def Classifier.interval (c : Classifier) (t : Micros) : Micros := t - c.lastT

/-- `prev = TIMINGS[0]` (R172). -/
def Classifier.prev (c : Classifier) : Micros := c.timings.headD 0

/-- The closed frame `TIMINGS[0 .. CC-2]`, whose length is `n = CC - 1` (R176); with `CC = 0` it is empty (log entry
13). -/
def Classifier.closedFrame (c : Classifier) : List Micros := c.timings.take (c.cc - 1)

end Sys2Proof.Machine
end

