-- ==== Sys2Proof/Machine/Ops.lean ====
section
/-! DEFINITION. The shared operations over the state: calling the Port (spec/60_exceptions.md R300), responding to the
host (spec/30_encoding.md R96), recording a silent event (R280), emitting a pulse (spec/00_scope.md R9), and the writes of
the two storage arrays (spec/20_memory.md R71). The block raises no exception and has no exception entry or return
(R280, R289); its one interrupt-like input, the edge, saves and restores nothing (R284, R285) and is in
Machine/Classifier.lean. -/

namespace Sys2Proof.Machine

open Sys2Proof

/-- The state with `rest` as the inputs yet to be taken. -/
def State.withInputs (s : State) (rest : List Input) : State := { s with inputs := rest }

/-- A call on the Port; the sequence of calls is part of the observation of a run (R300, R324). -/
def State.callPort (s : State) (c : PortCall) : State := { s with portLog := s.portLog ++ [c] }

/-- `respond(v)`: the response of a host command, after its state changes (R96). -/
def State.respond (s : State) (r : Response) : State := { s with responses := s.responses ++ [r] }

/-- The trace of a silent event (R280); no operation reads it (R281). -/
def State.record (s : State) (e : Event) : State := { s with events := s.events ++ [e] }

/-- `pulse(level, n)` with its write of `TXLEVEL` (spec/00_scope.md R9, spec/41_transmission_controller.md R145). -/
def State.emitPulse (s : State) (p : Pulse) : State :=
  let driven := { s.callPort (.writeLevel s.txPin.pin p.level) with txLevel := p.level }
  driven.callPort (.delayMicroseconds p.duration)

/-- The pulses of a list, in order (spec/40_pulse_encoder.md R127). -/
def State.emitPulses (s : State) (ps : List Pulse) : State := ps.foldl State.emitPulse s

/-- A completed format H command that changes nothing: a reserved word (spec/30_encoding.md R94). -/
def State.reservedWord (s : State) : State := (s.record .reservedCommandWord).respond .none

/-- `LAST_T <- t` (spec/42_edge_classifier.md R171). -/
def Classifier.stamp (c : Classifier) (t : Micros) : Classifier := { c with lastT := t }

/-- `TIMINGS[0] <- d; CC <- 1`: the interval opens a frame (R175, R177). -/
def Classifier.openFrame (c : Classifier) (d : Micros) : Classifier :=
  { c with timings := c.timings.set 0 d, cc := 1 }

/-- `TIMINGS[CC] <- d; CC <- CC + 1` (R178). -/
def Classifier.append (c : Classifier) (d : Micros) : Classifier :=
  { c with timings := c.timings.set c.cc d, cc := c.cc + 1 }

/-- `CC <- 0; RPT <- 0`: the hard reset of the noise and overflow branches (R177, R178). -/
def Classifier.hardReset (c : Classifier) : Classifier := { c with cc := 0, rpt := 0 }

/-- `RPT <- sat_inc(RPT, RPT_MAX)` (R175). -/
def Classifier.countSync (c : Classifier) : Classifier := { c with rpt := satInc c.rpt }

/-- `RES_RAW[i] <- frame[i]` for each `i` below the frame's length; the later entries keep their values (R230). -/
def overlay (frame old : List Micros) : List Micros := frame.take old.length ++ old.drop frame.length

/-- The 8-bit `RES_RAWLEN` of a frame of `n` intervals (R43); free where `n` does not fit (log entry 6). -/
def rawLenField (n : Nat) : BitVec 8 := if n < 256 then BitVec.ofNat 8 n else Config.rawLenTooLong n

/-- The 8-bit `RES_BITLEN` of a code of `n` bits (R42); free where `n` does not fit (log entry 6). -/
def bitLenField (n : Nat) : BitVec 8 := if n < 256 then BitVec.ofNat 8 n else Config.bitLenTooLong n

/-- The snapshot `RES_RAW[0 .. RES_RAWLEN-1]` that RX_TAKE returns (R43, R232). -/
def Latch.snapshot (l : Latch) : List Micros := l.raw.take l.rawLen.toNat

end Sys2Proof.Machine
end

