-- ==== Sys2Proof/Machine/ResultStore.lean ====
section
/-! DEFINITION. The Receive Result Store (spec/44_result_store.md): COMMIT, RX_AVAILABLE, RX_TAKE and RX_CLEAR. -/

namespace Sys2Proof.Machine

open Sys2Proof

/-- The latch after COMMIT of an accepted result: every field, and `AVAIL <- 1` (R230). -/
def Latch.publish (l : Latch) (r : Accepted) : Latch :=
  { l with
    value := r.value
    bitLen := bitLenField r.bitLen
    delay := r.delay
    proto := 1
    rawLen := rawLenField r.frame.length
    raw := overlay r.frame l.raw }.setAvail

/-- COMMIT takes the accepted result that DECODE passed (spec/30_encoding.md R100, R230). -/
def State.issueCommit (s : State) : State := { s with latch := s.latch.publish s.commitArgs }

/-- The record that RX_TAKE returns (R232). -/
def Latch.decodedResult (l : Latch) : Response :=
  .result l.value l.bitLen l.delay l.proto l.rawLen l.snapshot

/-- COMMIT (R230). -/
def execCommit (s : State) : Host.Outcome State Fault Refusal := .next s.issueCommit

/-- RX_AVAILABLE (R231). -/
def execRxAvailable (s : State) : Host.Outcome State Fault Refusal := .next (s.respond (.avail s.latch.avail))

/-- RX_TAKE: no state changes (R232). -/
def execRxTake (s : State) : Host.Outcome State Fault Refusal := .next (s.respond s.latch.decodedResult)

/-- RX_CLEAR (R233). -/
def execRxClear (s : State) : Host.Outcome State Fault Refusal :=
  .next ({ s with latch := s.latch.clearAvail }.respond .none)

end Sys2Proof.Machine
end

