-- ==== Sys2Proof/Machine/Decoder.lean ====
section
/-! DEFINITION. The Protocol Decoder (spec/43_protocol_decoder.md): the period and tolerance, the bit classification, the
walk over the pairs, and DECODE. The decoder keeps nothing between frames (R212). -/

namespace Sys2Proof.Machine

open Sys2Proof

/-- `period = frame[0] div 31` (R201). -/
def framePeriod (frame : List Micros) : Nat := (frame.headD 0).toNat / Config.syncUnitsRx

/-- `tol = (period × RXTOL) div 100` (R202). -/
def tolerance (period : Nat) (rxTol : BitVec 8) : Nat := period * rxTol.toNat / 100

/-- `near(x, c)`: the closed window, compared over the integers (R202). -/
def near (tol : Nat) (x : Micros) (c : Nat) : Bool :=
  decide ((c : Int) - (tol : Int) ≤ (x.toNat : Int) ∧ (x.toNat : Int) ≤ (c : Int) + (tol : Int))

/-- The bit of a pair, the bit-0 test first; `none` when the pair is neither (R203). -/
def classifyPair (period tol : Nat) (a b : Micros) : Option Bool :=
  if near tol a period && near tol b (3 * period) then some false
  else if near tol a (3 * period) && near tol b period then some true
  else none

/-- `((code << 1) | bit) mod 2^32` (R206). -/
def shiftIn (code : BitVec 32) (bit : Bool) : BitVec 32 := (code <<< 1) ||| (if bit then 1 else 0)

/-- The walk over the pairs after the sync: one pair of neither bit rejects the frame (R204 to R206). -/
def decodePairs (period tol : Nat) : List Micros → BitVec 32 → Option (BitVec 32)
  | a :: b :: rest, code =>
    match classifyPair period tol a b with
    | none => none
    | some bit => decodePairs period tol rest (shiftIn code bit)
  | [_], code => some code
  | [], code => some code

/-- The result of a frame: an even length is rejected before any pair is read (R204, R207). -/
def decodeFrame (rxTol : BitVec 8) (frame : List Micros) : Option Accepted :=
  let period := framePeriod frame
  if frame.length % 2 = 0 then none
  else
    (decodePairs period (tolerance period rxTol) frame.tail 0).map fun code =>
      { value := code, bitLen := frame.length / 2, delay := BitVec.ofNat 32 period, frame := frame }

/-- DECODE passes an accepted result on: COMMIT when the frame is longer than the gate, else nothing (R208). -/
def State.passResult (s : State) (r : Accepted) : State :=
  if Config.minIntervalsCommit < r.frame.length then { s with commitArgs := r }.issueCommit
  else s.record .belowCommitGate

/-- DECODE of a frame: a rejection writes no state (R200, R205). -/
def State.decodeClosed (s : State) (frame : List Micros) : State :=
  match decodeFrame s.rxTol frame with
  | none => s.record .malformedFrame
  | some r => s.passResult r

/-- DECODE (R200) of the frame `TIMINGS[0 .. CC-2]` (spec/30_encoding.md R100). -/
def execDecode (s : State) : Host.Outcome State Fault Refusal := .next (s.decodeClosed s.cls.closedFrame)

end Sys2Proof.Machine
end

