-- ==== Sys2Proof/Machine/Classifier.lean ====
section
/-! DEFINITION. The Edge Sample Classifier (spec/42_edge_classifier.md): the sync predicate, the three branches, the
handoff to the decoder, and EDGE, the block's one interrupt-like input (spec/60_exceptions.md R283 to R285). -/

namespace Sys2Proof.Machine

open Sys2Proof

/-- The sync predicate `S(d, prev)` (R172). -/
def isSync (d prev : Micros) : Bool :=
  decide
    ((Config.gapLong ≤ d.toNat ∧ Config.gapLong ≤ prev.toNat) ∨
      (Config.gapNormal < d.toNat ∧ Config.gapNormal < prev.toNat ∧ prev.toNat < Config.gapLong))

/-- The three branches of a delivered interval (R173). -/
inductive Branch where
  | sync
  | noise
  | ordinary
deriving DecidableEq, Repr

/-- The branch of an interval, tested in the order SYNC, NOISE, ORDINARY (R173). -/
def branchOf (d prev : Micros) : Branch :=
  if isSync d prev then .sync else if Config.gapNormal < d.toNat then .noise else .ordinary

/-- The handoff condition, on the classifier after the increment of `RPT` (R176). -/
def Classifier.handsOff (c : Classifier) : Bool := decide (c.rpt = 1 ∧ Config.minEdgesHandoff ≤ c.cc)

/-- The SYNC branch: count, hand the closed frame off or not, then open the next frame (R175, R176). -/
def State.syncBranch (s : State) (d : Micros) : State :=
  let counted := { s with cls := s.cls.countSync }
  let handed :=
    if counted.cls.handsOff then counted.decodeClosed counted.cls.closedFrame
    else counted.record .repeatNotConfirmed
  { handed with cls := handed.cls.openFrame d }

/-- The NOISE branch: hard reset, then the interval opens a frame (R177). -/
def State.noiseBranch (s : State) (d : Micros) : State :=
  { s with cls := s.cls.hardReset.openFrame d }.record .spuriousNoise

/-- The ORDINARY branch: overflow reset when the buffer is full, else append (R178). -/
def State.ordinaryBranch (s : State) (d : Micros) : State :=
  if s.cls.cc = s.cap then { s with cls := s.cls.hardReset }.record .bufferOverflow
  else { s with cls := s.cls.append d }

/-- The classifier's step on one interval (R173, R174). -/
def State.classify (s : State) (d : Micros) : State :=
  match branchOf d s.cls.prev with
  | .sync => s.syncBranch d
  | .noise => s.noiseBranch d
  | .ordinary => s.ordinaryBranch d

/-- A delivered edge: the timebase is read, the interval measured, `LAST_T` written, and the interval classified
(R171, R174, spec/60_exceptions.md R300); log entry 9. -/
def State.takeEdge (s : State) (t : Micros) : State :=
  let d := s.cls.interval t
  let stamped := { s.callPort (.nowMicroseconds t) with cls := s.cls.stamp t }
  stamped.classify d

/-- An edge of the receive line: delivered only while `RXCTL.LIVE = 1`, and otherwise lost with no change (R170). -/
def State.deliverEdge (s : State) (t : Micros) : State := if s.rxCtl.live then s.takeEdge t else s

/-- EDGE (R174, R170). -/
def execEdge (t : Micros) (s : State) : Host.Outcome State Fault Refusal := .next (s.deliverEdge t)

end Sys2Proof.Machine
end

