-- ==== Sys2Proof/Machine/HostConfig.lean ====
section
/-! DEFINITION. Host configuration and receive control (spec/45_host_configuration.md). No command checks its operand
against what a later command needs (R257), and each responds `NONE`. -/

namespace Sys2Proof.Machine

open Sys2Proof

/-- SET_TX_PIN: no level is written on the line (R250). -/
def execSetTxPin (pin : Pin) (s : State) : Host.Outcome State Fault Refusal :=
  .next ({ s.callPort (.configureOutput pin) with txPin := { valid := true, pin := pin } }.respond .none)

/-- The pulse length that SET_PROTOCOL leaves: the preset's default, or the old one when `id` has no preset (R251). -/
def plenAfterProtocol (id : BitVec 16) (old : BitVec 32) : BitVec 32 :=
  match Config.preset id with
  | some p => p.defaultPlen
  | none => old

/-- SET_PROTOCOL (R251). -/
def execSetProtocol (id : BitVec 16) (s : State) : Host.Outcome State Fault Refusal :=
  .next ({ s with proto := id, plen := plenAfterProtocol id s.plen }.respond .none)

/-- SET_PROTOCOL_PL: the explicit length is stored for any id (R252). -/
def execSetProtocolPl (id : BitVec 16) (pulseUs : BitVec 32) (s : State) : Host.Outcome State Fault Refusal :=
  .next ({ s with proto := id, plen := pulseUs }.respond .none)

/-- SET_REPEAT (R253). -/
def execSetRepeat (count : BitVec 32) (s : State) : Host.Outcome State Fault Refusal :=
  .next ({ s with repeatCount := count }.respond .none)

/-- SET_RX_TOLERANCE (R254). -/
def execSetRxTolerance (percent : BitVec 8) (s : State) : Host.Outcome State Fault Refusal :=
  .next ({ s with rxTol := percent }.respond .none)

/-- The registration of the old pin is dropped when reception is live (R255). -/
def State.unregisterIfLive (s : State) : State :=
  if s.rxCtl.live then s.callPort (.unregisterEdgeCallback s.rxCtl.pin) else s

/-- RX_ENABLE (R255). -/
def execRxEnable (pin : Pin) (s : State) : Host.Outcome State Fault Refusal :=
  let registered := (s.unregisterIfLive.callPort (.configureInput pin)).callPort (.registerEdgeCallback pin)
  .next ({ registered with rxCtl := { en := true, live := true, pin := pin } }.respond .none)

/-- The effect of RX_DISABLE before its response: nothing when reception is not enabled (R256). -/
def State.stopReception (s : State) : State :=
  if s.rxCtl.en then
    { s.callPort (.unregisterEdgeCallback s.rxCtl.pin) with rxCtl := { s.rxCtl with en := false, live := false } }
  else s

/-- RX_DISABLE (R256). -/
def execRxDisable (s : State) : Host.Outcome State Fault Refusal := .next (s.stopReception.respond .none)

end Sys2Proof.Machine
end

