-- ==== Sys2Proof/Machine/Encoder.lean ====
section
/-! DEFINITION. The Pulse Encoder (spec/40_pulse_encoder.md): the pulse function `enc` and the meanings of its seven
micro-operations. An encoder micro-operation emits the pulses of `enc` in order and does nothing else (R127). -/

namespace Sys2Proof.Machine

open Sys2Proof

/-- A HIGH pulse followed by a LOW pulse, the shape of every pair (R128). -/
def pulsePair (p : Params) (high low : Nat) : List Pulse :=
  [{ level := .high, duration := p.duration high }, { level := .low, duration := p.duration low }]

/-- The bit-0 pair, short high and long low (R120). -/
def zeroPair (p : Params) : List Pulse := pulsePair p p.mult.zeroHigh p.mult.zeroLow

/-- The bit-1 pair, long high and short low (R121). -/
def onePair (p : Params) : List Pulse := pulsePair p p.mult.oneHigh p.mult.oneLow

/-- The sync pair (R122). -/
def syncPair (p : Params) : List Pulse := pulsePair p p.mult.syncHigh p.mult.syncLow

/-- `enc(u, p)` for a supported protocol (R120 to R126). -/
def encPair (u : EncOp) (p : Params) : List Pulse :=
  match u with
  | .bit0 => zeroPair p
  | .bit1 => onePair p
  | .sync => syncPair p
  | .symZero => zeroPair p ++ zeroPair p
  | .symFloat => zeroPair p ++ onePair p
  | .sym10 => onePair p ++ zeroPair p
  | .symOne => onePair p ++ onePair p

/-- `enc(u, params)`: no pulse for an unsupported protocol (R127, R129). -/
def enc (u : EncOp) (params : Option Params) : List Pulse :=
  match params with
  | none => []
  | some p => encPair u p

/-- Executing an encoder micro-operation on its own: all its pulses (R127); log entry 14. -/
def State.encode (s : State) (u : EncOp) : State := s.emitPulses (enc u s.params)

/-- EMIT_BIT0 (R120). -/
def execEmitBit0 (s : State) : Host.Outcome State Fault Refusal := .next (s.encode .bit0)

/-- EMIT_BIT1 (R121). -/
def execEmitBit1 (s : State) : Host.Outcome State Fault Refusal := .next (s.encode .bit1)

/-- EMIT_SYNC (R122). -/
def execEmitSync (s : State) : Host.Outcome State Fault Refusal := .next (s.encode .sync)

/-- EMIT_SYM_ZERO (R123). -/
def execEmitSymZero (s : State) : Host.Outcome State Fault Refusal := .next (s.encode .symZero)

/-- EMIT_SYM_FLOAT (R124). -/
def execEmitSymFloat (s : State) : Host.Outcome State Fault Refusal := .next (s.encode .symFloat)

/-- EMIT_SYM_10 (R126). -/
def execEmitSym10 (s : State) : Host.Outcome State Fault Refusal := .next (s.encode .sym10)

/-- EMIT_SYM_ONE (R125). -/
def execEmitSymOne (s : State) : Host.Outcome State Fault Refusal := .next (s.encode .symOne)

end Sys2Proof.Machine
end

