-- ==== Sys2Proof/Machine/Transmit.lean ====
section
/-! DEFINITION. The Transmission Controller (spec/41_transmission_controller.md): the pulse list of a burst, the start,
pulse and end steps of the transmit sequencer, and the meanings of TX_CODE and TX_TRISTATE. -/

namespace Sys2Proof.Machine

open Sys2Proof

/-- `burst`: `N` repetitions of a frame's micro-operations, encoded (R142). -/
def burst (frameOps : List EncOp) (params : Option Params) (n : Nat) : List Pulse :=
  (List.replicate n frameOps).flatten.flatMap fun u => enc u params

/-- The start step of a non-empty burst; it suspends reception when reception is live (R144). -/
def State.startBurst (s : State) (ps : List Pulse) : State :=
  let begun := { s with seq := { busy := true, susp := s.rxCtl.live, pos := 0, pulses := ps } }
  if s.rxCtl.live then
    { begun.callPort (.unregisterEdgeCallback s.rxCtl.pin) with rxCtl := { s.rxCtl with live := false } }
  else begun

/-- A pulse step: the pulse at `POS`, then `POS + 1` (R145). -/
def State.pulseStep (s : State) (p : Pulse) : State :=
  { s.emitPulse p with seq := { s.seq with pos := s.seq.pos + 1 } }

/-- The end step of a burst; it restores reception when the burst suspended it, and responds (R146). -/
def State.endBurst (s : State) : State :=
  let resumed :=
    if s.seq.susp then
      { s.callPort (.registerEdgeCallback s.rxCtl.pin) with rxCtl := { s.rxCtl with live := true } }
    else s
  { resumed with seq := { s.seq with busy := false, susp := false } }.respond .none

/-- One step of the HOST agent inside a burst, or its wait between commands (R145, R146, spec/60_exceptions.md R289).
A burst in progress with `POS` past the end has no step (log entry 12). -/
def State.sequencerTurn (s : State) : Host.Outcome State Fault Refusal :=
  if s.seq.busy then
    match s.seq.pulses[s.seq.pos]? with
    | some p => .next (s.pulseStep p)
    | none => if s.seq.pos = s.seq.pulses.length then .next s.endBurst else .fault .sequencerOverrun
  else .next s

/-- The event that names an empty burst (R280 events 4 and 10); free where both causes hold (log entry 8). -/
def State.emptyBurstEvent (s : State) : Event :=
  if s.params.isNone then
    if s.repeatCount = 0 then
      if Config.emptyBurstNamesProtocol then .unknownProtocol else .emptyRepeat
    else .unknownProtocol
  else .emptyRepeat

/-- A transmit command from its second check on: the transmit pin, the empty burst, the start step (R143, R144, R147). -/
def State.transmit (s : State) (frameOps : List EncOp) : State :=
  if s.txPin.valid then
    let ps := burst frameOps s.params s.repeatCount.toNat
    if ps.isEmpty then (s.record s.emptyBurstEvent).respond .none else s.startBurst ps
  else (s.record .noTransmitPin).respond .none

/-- A transmit command whose length or count is out of range: a no-op (R147, R148, R152). -/
def State.operandOutOfRange (s : State) : State := (s.record .operandOutOfRange).respond .none

/-- TX_CODE: the start step of the burst, or a no-op (R147). -/
def execTxCode (value : BitVec 32) (len : Nat) (s : State) : Host.Outcome State Fault Refusal :=
  if len < 1 ∨ 32 < len then .next s.operandOutOfRange else .next (s.transmit (codeFrameOps value len))

/-- TX_TRISTATE: as TX_CODE, with the symbol micro-operations of the packed symbols (R148). -/
def execTxTristate (packed : BitVec 32) (count : Nat) (s : State) : Host.Outcome State Fault Refusal :=
  if count < 1 ∨ 16 < count then .next s.operandOutOfRange else .next (s.transmit (tristateFrameOps packed count))

end Sys2Proof.Machine
end

