-- ==== Sys2Proof/Machine/Dispatch.lean ====
section
/-! DEFINITION. One arm per operation, each one call of its meaning. -/

namespace Sys2Proof.Machine

open Sys2Proof

def exec (i : Instr) (s : State) : Host.Outcome State Fault Refusal :=
  match i with
  | .setTxPin pin => Sys2Proof.Machine.execSetTxPin pin s
  | .setProtocol id => Sys2Proof.Machine.execSetProtocol id s
  | .setProtocolPl id pulseUs => Sys2Proof.Machine.execSetProtocolPl id pulseUs s
  | .setRepeat count => Sys2Proof.Machine.execSetRepeat count s
  | .setRxTolerance percent => Sys2Proof.Machine.execSetRxTolerance percent s
  | .txCode value len => Sys2Proof.Machine.execTxCode value len s
  | .txTristate packed count => Sys2Proof.Machine.execTxTristate packed count s
  | .rxEnable pin => Sys2Proof.Machine.execRxEnable pin s
  | .rxDisable => Sys2Proof.Machine.execRxDisable s
  | .rxAvailable => Sys2Proof.Machine.execRxAvailable s
  | .rxTake => Sys2Proof.Machine.execRxTake s
  | .rxClear => Sys2Proof.Machine.execRxClear s
  | .emitBit0 => Sys2Proof.Machine.execEmitBit0 s
  | .emitBit1 => Sys2Proof.Machine.execEmitBit1 s
  | .emitSync => Sys2Proof.Machine.execEmitSync s
  | .emitSymZero => Sys2Proof.Machine.execEmitSymZero s
  | .emitSymFloat => Sys2Proof.Machine.execEmitSymFloat s
  | .emitSym10 => Sys2Proof.Machine.execEmitSym10 s
  | .emitSymOne => Sys2Proof.Machine.execEmitSymOne s
  | .decode => Sys2Proof.Machine.execDecode s
  | .commit => Sys2Proof.Machine.execCommit s
  | .edge t => Sys2Proof.Machine.execEdge t s

end Sys2Proof.Machine
end

