-- ==== Sys2Proof/WellFormed.lean ====
section
/-! DEFINITION. Which operations a word can carry (spec/30_encoding.md R97) and which pseudo-operations the assembler
accepts (R108). Every operand but a bit length and a symbol count has exactly the width of its field, so only those two
are checked. -/

namespace Sys2Proof

/-- An operation is well formed when each operand fits its field: TX_CODE has a 6-bit length and TX_TRISTATE a 5-bit
count (R93, R97). -/
def Instr.wellFormed : Instr → Bool
  | .setTxPin _ | .setProtocol _ | .setProtocolPl _ _ | .setRepeat _ | .setRxTolerance _ => true
  | .txCode _ len => decide (len < 64)
  | .txTristate _ count => decide (count < 32)
  | .rxEnable _ | .rxDisable | .rxAvailable | .rxTake | .rxClear => true
  | .emitBit0 | .emitBit1 | .emitSync | .emitSymZero | .emitSymFloat | .emitSym10 | .emitSymOne => true
  | .decode | .commit => true
  | .edge _ => true

/-- The assembler accepts a symbol string of 1 to 16 symbols and refuses any other length (R108). -/
def Pseudo.wellFormed : Pseudo → Bool
  | .txTristateString s => decide (1 ≤ s.length ∧ s.length ≤ 16)
  | .rxReadClear _ => true
  | .transmit _ len _ => decide (len < 64)
  | .setProtocolTwo _ _ => true

end Sys2Proof
end

