-- ==== Sys2Proof/Decode.lean ====
section
/-! DEFINITION. Decoding and encoding of the three formats (spec/30_encoding.md). The decoder is total on every code and
rejects by name; the encoder follows it. `hostTable` is the match and mask table of R93. -/

namespace Sys2Proof

/-- Why a code names no operation (R94, R95, R101). -/
inductive Reject where
  /-- A format H word whose `OPC` is in no row of R93. -/
  | hostOpcode (opc : BitVec 8)
  /-- A format H word of an assigned `OPC` with a nonzero bit that its row requires to be 0. -/
  | hostReservedBits (opc : BitVec 8)
  /-- A reserved format U code (R101). -/
  | microCode (u : MicroCode)
deriving DecidableEq, Repr

/-- `OPC = w[63:56]` (R91). -/
def opcField (w : HostWord) : BitVec 8 := w.extractLsb' 56 8

/-- `RSV = w[55:48]` (R91). -/
def rsvField (w : HostWord) : BitVec 8 := w.extractLsb' 48 8

/-- `B = w[47:32]` (R91). -/
def bField (w : HostWord) : BitVec 16 := w.extractLsb' 32 16

/-- `A = w[31:0]` (R91). -/
def aField (w : HostWord) : BitVec 32 := w.extractLsb' 0 32

/-- The host word of an opcode and its two operand fields, `RSV` being 0 (R91). -/
def hostWord (opc : BitVec 8) (b : BitVec 16) (a : BitVec 32) : HostWord :=
  (opc ++ (0 : BitVec 8) ++ b ++ a : BitVec (8 + 8 + 16 + 32))

/-- The operation `i` when the bits that its row requires to be 0 are 0, and a rejection otherwise (R95). -/
def requireZero (zero : Bool) (opc : BitVec 8) (i : Instr) : Except Reject Instr :=
  if zero then .ok i else .error (.hostReservedBits opc)

/-- Decoding of a format H word by its fields (R91 to R95). -/
def decodeHost (w : HostWord) : Except Reject Instr :=
  let opc := opcField w
  let a := aField w
  let b := bField w
  let rsv0 : Bool := rsvField w == 0
  let a0 : Bool := a == 0
  let b0 : Bool := b == 0
  match opc.toNat with
  | 0x01 => requireZero (rsv0 && b0) opc (.setTxPin a)
  | 0x02 => requireZero (rsv0 && a0) opc (.setProtocol b)
  | 0x03 => requireZero rsv0 opc (.setProtocolPl b a)
  | 0x04 => requireZero (rsv0 && b0) opc (.setRepeat a)
  | 0x05 => requireZero (rsv0 && b0 && a.extractLsb' 8 24 == 0) opc (.setRxTolerance (a.extractLsb' 0 8))
  | 0x10 => requireZero (rsv0 && b.extractLsb' 6 10 == 0) opc (.txCode a (b.extractLsb' 0 6).toNat)
  | 0x11 => requireZero (rsv0 && b.extractLsb' 5 11 == 0) opc (.txTristate a (b.extractLsb' 0 5).toNat)
  | 0x20 => requireZero (rsv0 && b0) opc (.rxEnable a)
  | 0x21 => requireZero (rsv0 && b0 && a0) opc .rxDisable
  | 0x22 => requireZero (rsv0 && b0 && a0) opc .rxAvailable
  | 0x23 => requireZero (rsv0 && b0 && a0) opc .rxTake
  | 0x24 => requireZero (rsv0 && b0 && a0) opc .rxClear
  | _ => .error (.hostOpcode opc)

/-- Decoding of a format U code (R101). -/
def decodeMicro (u : MicroCode) : Except Reject Instr :=
  match u.toNat with
  | 0b0000 => .ok .emitBit0
  | 0b0001 => .ok .emitBit1
  | 0b0010 => .ok .emitSync
  | 0b0100 => .ok .emitSymZero
  | 0b0101 => .ok .emitSymFloat
  | 0b0110 => .ok .emitSym10
  | 0b0111 => .ok .emitSymOne
  | 0b1000 => .ok .decode
  | 0b1001 => .ok .commit
  | _ => .error (.microCode u)

/-- Decoding of a code of any format; every 32-bit timestamp is an edge event (R90, R105). -/
def decodeCode : Code → Except Reject Instr
  | .host w => decodeHost w
  | .micro u => decodeMicro u
  | .edge t => .ok (.edge t)

/-- The code of an operation, from the tables of R93, R101 and R105. -/
def encode : Instr → Code
  | .setTxPin pin => .host (hostWord 0x01 0 pin)
  | .setProtocol id => .host (hostWord 0x02 id 0)
  | .setProtocolPl id pulseUs => .host (hostWord 0x03 id pulseUs)
  | .setRepeat count => .host (hostWord 0x04 0 count)
  | .setRxTolerance percent => .host (hostWord 0x05 0 (percent.setWidth 32))
  | .txCode value len => .host (hostWord 0x10 (BitVec.ofNat 16 len) value)
  | .txTristate packed count => .host (hostWord 0x11 (BitVec.ofNat 16 count) packed)
  | .rxEnable pin => .host (hostWord 0x20 0 pin)
  | .rxDisable => .host (hostWord 0x21 0 0)
  | .rxAvailable => .host (hostWord 0x22 0 0)
  | .rxTake => .host (hostWord 0x23 0 0)
  | .rxClear => .host (hostWord 0x24 0 0)
  | .emitBit0 => .micro 0b0000
  | .emitBit1 => .micro 0b0001
  | .emitSync => .micro 0b0010
  | .emitSymZero => .micro 0b0100
  | .emitSymFloat => .micro 0b0101
  | .emitSym10 => .micro 0b0110
  | .emitSymOne => .micro 0b0111
  | .decode => .micro 0b1000
  | .commit => .micro 0b1001
  | .edge t => .edge t

/-- A row of the host opcode table (R93): a word `w` selects it when `w &&& mask = matchBits`. -/
structure HostRow where
  mnemonic : String
  matchBits : HostWord
  mask : HostWord
deriving DecidableEq, Repr

/-- The host opcode table (R93). -/
def hostTable : List HostRow :=
  [ ⟨"SET_TX_PIN", 0x0100000000000000, 0xFFFFFFFF00000000⟩,
    ⟨"SET_PROTOCOL", 0x0200000000000000, 0xFFFF0000FFFFFFFF⟩,
    ⟨"SET_PROTOCOL_PL", 0x0300000000000000, 0xFFFF000000000000⟩,
    ⟨"SET_REPEAT", 0x0400000000000000, 0xFFFFFFFF00000000⟩,
    ⟨"SET_RX_TOLERANCE", 0x0500000000000000, 0xFFFFFFFFFFFFFF00⟩,
    ⟨"TX_CODE", 0x1000000000000000, 0xFFFFFFC000000000⟩,
    ⟨"TX_TRISTATE", 0x1100000000000000, 0xFFFFFFE000000000⟩,
    ⟨"RX_ENABLE", 0x2000000000000000, 0xFFFFFFFF00000000⟩,
    ⟨"RX_DISABLE", 0x2100000000000000, 0xFFFFFFFFFFFFFFFF⟩,
    ⟨"RX_AVAILABLE", 0x2200000000000000, 0xFFFFFFFFFFFFFFFF⟩,
    ⟨"RX_TAKE", 0x2300000000000000, 0xFFFFFFFFFFFFFFFF⟩,
    ⟨"RX_CLEAR", 0x2400000000000000, 0xFFFFFFFFFFFFFFFF⟩ ]

/-- A word selects a row (R93). -/
def HostRow.selectedBy (r : HostRow) (w : HostWord) : Bool := w &&& r.mask == r.matchBits

/-- The code whose bits are `w`, from how many bits the opcode table gives its row: 64 for format H, 32 for format E,
and 4 (8 in whole bytes) for format U. -/
def codeOfTableWord (nbits w : Nat) : Option Code :=
  match nbits with
  | 64 => some (.host (BitVec.ofNat 64 w))
  | 32 => some (.edge (BitVec.ofNat 32 w))
  | 8 => if w < 16 then some (.micro (BitVec.ofNat 4 w)) else none
  | 4 => if w < 16 then some (.micro (BitVec.ofNat 4 w)) else none
  | _ => none

/-- The operation that the decoder reads from a row's bits `w`, as spec/opcode_table.json numbers them. -/
def decodeTableWord (nbits w : Nat) : Option Instr :=
  match codeOfTableWord nbits w with
  | none => none
  | some c =>
    match decodeCode c with
    | .ok i => some i
    | .error _ => none

end Sys2Proof
end

