-- ==== Sys2Proof/Machine/Fetch.lean ====
section
/-! DEFINITION. Which agent takes the next step (spec/20_memory.md R77). The block fetches no instructions from storage
(R81): the next code is the first of `State.inputs`. A command word that stands first while a burst is in progress is not
accepted until the end step (spec/41_transmission_controller.md R141), so the sequencer takes that turn; an edge is the
EDGE agent's and is taken at once, delivered or lost (spec/42_edge_classifier.md R170). -/

namespace Sys2Proof.Machine

open Sys2Proof

/-- What the next step is. -/
inductive Action where
  /-- An operation runs. -/
  | run (i : Instr) (s : State)
  /-- The transmit sequencer takes its turn, or the block waits. -/
  | sequencer (s : State)
  /-- A reserved format H word completes as a no-op. -/
  | reserved (s : State)
  /-- A reserved micro-operation code was issued. -/
  | badMicro (u : MicroCode)
deriving DecidableEq, Repr

/-- The next step of a state whose first input is the code `c`, taken, with `rest` after it (R94, R101). -/
def State.takeCode (s : State) (c : Code) (rest : List Input) : Action :=
  match decodeCode c with
  | .ok i => .run i (s.withInputs rest)
  | .error (.microCode u) => .badMicro u
  | .error (.hostOpcode _) => .reserved (s.withInputs rest)
  | .error (.hostReservedBits _) => .reserved (s.withInputs rest)

/-- The next step (R77, R141). With no input left the block waits, or a burst in progress goes on. -/
def State.fetch (s : State) : Action :=
  match s.inputs with
  | [] => .sequencer s
  | .turn :: rest => .sequencer (s.withInputs rest)
  | .code (.edge t) :: rest => s.takeCode (.edge t) rest
  | .code (.host w) :: rest => if s.seq.busy then .sequencer s else s.takeCode (.host w) rest
  | .code (.micro u) :: rest => if s.seq.busy then .sequencer s else s.takeCode (.micro u) rest

/-- The state in which the command port is free and `c` is the next code; for an edge, reception is also registered, so
that the edge is delivered (R170); log entries 2 and 20. -/
def State.withNextCode (s : State) (c : Code) : State :=
  let ready := { s with seq := { s.seq with busy := false }, inputs := .code c :: s.inputs }
  match c with
  | .host _ => ready
  | .micro _ => ready
  | .edge _ => { ready with rxCtl := { s.rxCtl with en := true, live := true } }

end Sys2Proof.Machine
end

