-- ==== Sys2Proof/Machine/Step.lean ====
section
/-! DEFINITION. One atomic step of RCSW-CORE (spec/20_memory.md R74, R77), and how the host places its next operation. -/

namespace Sys2Proof.Machine

open Sys2Proof

/-- One step: the operation that `State.fetch` gives, a turn of the sequencer, or the no-op of a reserved word. -/
def step (s : State) : Host.Outcome State Fault Refusal :=
  match s.fetch with
  | .run i s' => exec i s'
  | .sequencer s' => s'.sequencerTurn
  | .reserved s' => .next s'.reservedWord
  | .badMicro u => .fault (.reservedMicroOp u)

/-- `s` with the operation of bits `w` placed where the next step takes it; bits of no format place nothing. -/
def State.withFetchWord (s : State) (nbits w : Nat) : State :=
  match codeOfTableWord nbits w with
  | some c => s.withNextCode c
  | none => s

end Sys2Proof.Machine
end

