-- ==== Sys2Proof/Machine/Assembler.lean ====
section
/-! DEFINITION. The assembler of spec/30_encoding.md section 5: the packing of a symbol string (R98), the pseudo-operations
(R110) and the textual syntax (R108). It stands in front of the command port; the machine never reads text. -/

namespace Sys2Proof.Machine

open Sys2Proof

/-- The two-bit code of a tri-state symbol (R98). -/
def symbolCode : Symbol → BitVec 2
  | .zero => 0b00
  | .float => 0b01
  | .one => 0b11

/-- `packed(s)`: two bits per symbol, the first symbol in the most significant pair (R98). -/
def packSymbols (s : List Symbol) : BitVec 32 :=
  s.foldl (fun acc x => (acc <<< 2) ||| (symbolCode x).setWidth 32) 0

/-- The expansion of a pseudo-operation (R110), refused when it is not well formed (R108). -/
def expandPseudo (p : Pseudo) : Option (List Instr) :=
  if p.wellFormed then
    match p with
    | .txTristateString s => some [.txTristate (packSymbols s) s.length]
    | .rxReadClear pin => some [.rxDisable, .rxTake, .rxClear, .rxEnable pin]
    | .transmit value len count => some [.setRepeat count, .txCode value len]
    | .setProtocolTwo id pulseUs => some [.setProtocolPl id pulseUs]
  else none

/-- A line of assembler text (R108). -/
inductive AsmLine where
  | blank
  | op (i : Instr)
  | pseudo (p : Pseudo)
deriving DecidableEq, Repr

/-- The text before a comment, which a `;` starts (R108). -/
def stripComment (l : List Char) : List Char := l.takeWhile fun c => c != ';'

/-- The text without leading and trailing blanks. -/
def trimBlanks (l : List Char) : List Char :=
  ((l.dropWhile Char.isWhitespace).reverse.dropWhile Char.isWhitespace).reverse

/-- The parts of a text between its commas, each without surrounding blanks (R108). -/
def splitCommas : List Char → List (List Char)
  | [] => [[]]
  | c :: rest =>
    if c = ',' then [] :: splitCommas rest
    else
      match splitCommas rest with
      | [] => [[c]]
      | part :: parts => (c :: part) :: parts

/-- The value of a digit. -/
def digitValue (c : Char) : Option Nat :=
  if '0' ≤ c ∧ c ≤ '9' then some (c.toNat - '0'.toNat)
  else if 'a' ≤ c ∧ c ≤ 'f' then some (c.toNat - 'a'.toNat + 10)
  else if 'A' ≤ c ∧ c ≤ 'F' then some (c.toNat - 'A'.toNat + 10)
  else none

/-- The number that digits of a base write, from an accumulated value. -/
def parseDigits (base : Nat) : List Char → Nat → Option Nat
  | [], acc => some acc
  | c :: rest, acc =>
    match digitValue c with
    | some v => if v < base then parseDigits base rest (base * acc + v) else none
    | none => none

/-- A number: decimal, or with the prefix `0x` or `0b` (spec/00_scope.md R8). -/
def parseNumber (l : List Char) : Option Nat :=
  match l with
  | [] => none
  | '0' :: 'x' :: c :: rest => parseDigits 16 (c :: rest) 0
  | '0' :: 'b' :: c :: rest => parseDigits 2 (c :: rest) 0
  | c :: rest => parseDigits 10 (c :: rest) 0

/-- A number that fits an operand of `width` bits (R97). -/
def parseOperand (width : Nat) (l : List Char) : Option (BitVec width) :=
  match parseNumber l with
  | some n => if n < 2 ^ width then some (BitVec.ofNat width n) else none
  | none => none

/-- The symbol string between double quotes, of the characters `0`, `1` and `F` (R108). -/
def parseSymbols : List Char → Option (List Symbol)
  | [] => none
  | c :: rest =>
    if c.toNat = 34 then (if rest.isEmpty then some [] else none)
    else
      match (if c = '0' then some Symbol.zero else if c = '1' then some Symbol.one
        else if c = 'F' then some Symbol.float else none), parseSymbols rest with
      | some x, some xs => some (x :: xs)
      | _, _ => none

/-- The operation of a mnemonic and its operand texts (R108, R110). -/
def parseOperation (mnemonic : String) (operands : List (List Char)) : Option AsmLine :=
  match mnemonic, operands with
  | "SET_TX_PIN", [x] => do return .op (.setTxPin (← parseOperand 32 x))
  | "SET_PROTOCOL", [x] => do return .op (.setProtocol (← parseOperand 16 x))
  | "SET_PROTOCOL", [x, y] => do return .pseudo (.setProtocolTwo (← parseOperand 16 x) (← parseOperand 32 y))
  | "SET_PROTOCOL_PL", [x, y] => do return .op (.setProtocolPl (← parseOperand 16 x) (← parseOperand 32 y))
  | "SET_REPEAT", [x] => do return .op (.setRepeat (← parseOperand 32 x))
  | "SET_RX_TOLERANCE", [x] => do return .op (.setRxTolerance (← parseOperand 8 x))
  | "TX_CODE", [x, y] => do return .op (.txCode (← parseOperand 32 x) (← parseOperand 6 y).toNat)
  | "TX_TRISTATE", [x, y] => do return .op (.txTristate (← parseOperand 32 x) (← parseOperand 5 y).toNat)
  | "TX_TRISTATE", [c :: text] =>
    if c.toNat = 34 then do return .pseudo (.txTristateString (← parseSymbols text)) else none
  | "RX_ENABLE", [x] => do return .op (.rxEnable (← parseOperand 32 x))
  | "RX_DISABLE", [[]] => some (.op .rxDisable)
  | "RX_AVAILABLE", [[]] => some (.op .rxAvailable)
  | "RX_TAKE", [[]] => some (.op .rxTake)
  | "RX_CLEAR", [[]] => some (.op .rxClear)
  | "RX_READ_CLEAR", [x] => do return .pseudo (.rxReadClear (← parseOperand 32 x))
  | "TRANSMIT", [x, y, z] =>
    do return .pseudo (.transmit (← parseOperand 32 x) (← parseOperand 6 y).toNat (← parseOperand 32 z))
  | "EDGE", ['@' :: x] => do return .op (.edge (← parseOperand 32 x))
  | _, _ => none

/-- A line of text: a comment is dropped, the first word is the mnemonic, the rest its operands (R108). -/
def parseLine (line : String) : Option AsmLine :=
  let text := trimBlanks (stripComment line.toList)
  if text.isEmpty then some .blank
  else
    let word := text.takeWhile fun c => !c.isWhitespace
    let rest := trimBlanks (text.dropWhile fun c => !c.isWhitespace)
    parseOperation (String.ofList word) ((splitCommas rest).map trimBlanks)

/-- The operations that a line stands for; a pseudo-operation is expanded (R110). -/
def assembleLine (line : String) : Option (List Instr) :=
  match parseLine line with
  | none => none
  | some .blank => some []
  | some (.op i) => some [i]
  | some (.pseudo p) => expandPseudo p

end Sys2Proof.Machine
end

