-- ==== Sys2Proof/Safety.lean ====
section
/-! DEFINITION. The terms in which statements about runs are made: the inputs that the spec's two agents can give, a
complete run (spec/70_reset_and_hazards.md R324), the physical line and its timing (R321, R339), and the invariants of
the state. -/

namespace Sys2Proof.Machine

open Sys2Proof

/-- An input that the HOST or the EDGE agent gives; a micro-operation is never on the command port
(spec/30_encoding.md R100). -/
def Input.external : Input → Bool
  | .code (.host _) => true
  | .code (.edge _) => true
  | .code (.micro _) => false
  | .turn => true

/-- An edge of the receive line. -/
def Input.isEdge : Input → Bool
  | .code (.edge _) => true
  | .code (.host _) => false
  | .code (.micro _) => false
  | .turn => false

/-- A turn given to the sequencer. -/
def Input.isTurn : Input → Bool
  | .turn => true
  | .code _ => false

/-- Every input still to come is one of the two agents'. -/
def State.External (s : State) : Prop := s.inputs.all Input.external = true

/-- No host command is outstanding: a run that ends here is complete (R324). -/
def State.complete (s : State) : Bool := !s.seq.busy

/-- The next step is an edge that is delivered (R170). -/
def State.TakesEdge (s : State) : Prop :=
  s.rxCtl.live = true ∧ ∃ t rest, s.inputs = .code (.edge t) :: rest

/-- The next step is the host command `i` (spec/60_exceptions.md R303). -/
def State.TakesCommand (s : State) (i : Instr) : Prop :=
  s.seq.busy = false ∧ ∃ w rest, s.inputs = .code (.host w) :: rest ∧ decodeHost w = .ok i

/-- The next step is the start step of a transmit command, or its no-op (spec/41_transmission_controller.md R147,
R148). -/
def State.TakesTransmit (s : State) : Prop :=
  (∃ value len, s.TakesCommand (.txCode value len)) ∨ ∃ packed count, s.TakesCommand (.txTristate packed count)

/-- The next step is the transmit sequencer's, in a burst: no edge stands first (R145, R146). -/
def State.TakesSequencer (s : State) : Prop :=
  s.seq.busy = true ∧ ∀ t rest, s.inputs ≠ .code (.edge t) :: rest

/-- The next step is a pulse step (R145). -/
def State.TakesPulse (s : State) : Prop := s.TakesSequencer ∧ s.seq.pos < s.seq.pulses.length

/-- The next step is the end step of a burst (R146). -/
def State.TakesBurstEnd (s : State) : Prop := s.TakesSequencer ∧ s.seq.pos = s.seq.pulses.length

/-- The level last written to a line by the block, or the platform's level before the first write (R321). -/
def State.lineLevel (s : State) (pin : Pin) : Level :=
  s.portLog.foldl
    (fun level call =>
      match call with
      | .writeLevel p l => if p = pin then l else level
      | _ => level)
    (Config.lineBeforeFirstPulse pin)

/-- A real pulse realises a nominal one within `TX_TIMING_TOL` (spec/60_exceptions.md R301 (e), R339). -/
def PulseRealised (nominal real : Nat) : Prop :=
  nominal ≤ real + Config.txTimingTol ∧ real ≤ nominal + Config.txTimingTol

/-- The modelled time of a list of Port calls: the sum of the delays (spec/70_reset_and_hazards.md R345). -/
def modelledTime (calls : List PortCall) : Nat :=
  (calls.map fun call =>
    match call with
    | .delayMicroseconds n => n
    | _ => 0).sum

/-- The two Port calls of a pulse on a pin (spec/41_transmission_controller.md R145). -/
def pulseCalls (pin : Pin) (p : Pulse) : List PortCall := [.writeLevel pin p.level, .delayMicroseconds p.duration]

/-- HIGH, LOW pairs throughout (spec/40_pulse_encoder.md R128). -/
def paired : List Pulse → Bool
  | [] => true
  | [_] => false
  | a :: b :: rest => a.level == .high && b.level == .low && paired rest

/-- The edges that a receiver sees of a pulse list that begins at `t0` on a LOW line: one at the start of each pulse
(spec/95_test_vectors.md, `edges`). Timestamps wrap. -/
def edgeTimes (t0 : Micros) : List Pulse → List Micros
  | [] => []
  | p :: rest => t0 :: edgeTimes (t0 + BitVec.ofNat 32 p.duration) rest

/-- The inputs that deliver a list of timestamps as edges. -/
def edgeInputs (ts : List Micros) : List Input := ts.map fun t => .code (.edge t)

/-- The storage arrays have `CAP` entries and no index passes them (spec/10_state.md R36, R37, R43, R179). -/
structure State.IndexInv (s : State) : Prop where
  cap_pos : 1 ≤ s.cap
  timings_length : s.cls.timings.length = s.cap
  cc_le : s.cls.cc ≤ s.cap
  raw_length : s.latch.raw.length = s.cap
  rawLen_le : s.latch.rawLen.toNat ≤ s.cap
  args_le : s.commitArgs.frame.length ≤ s.cap

/-- While a frame candidate is open, every entry after the first is an ORDINARY interval (spec/42_edge_classifier.md
R180). -/
def State.FrameInv (s : State) : Prop :=
  ∀ i, 1 ≤ i → i < s.cls.cc → (s.cls.timings.getD i 0).toNat ≤ Config.gapNormal

/-- `LIVE = EN` except during a burst that suspended reception, and never live during a burst (spec/10_state.md R26,
spec/41_transmission_controller.md R141). -/
structure State.ReceptionInv (s : State) : Prop where
  idle : s.seq.busy = false → s.rxCtl.live = s.rxCtl.en ∧ s.seq.susp = false
  burst : s.seq.busy = true → s.rxCtl.live = false ∧ s.rxCtl.en = s.seq.susp

/-- Between bursts the line is LOW; in a burst `PULSES` is in pairs, `POS` does not pass its end, and the line holds
the level of the pulse before `POS` (spec/10_state.md R45, R46, spec/41_transmission_controller.md R150). -/
structure State.LineInv (s : State) : Prop where
  idle : s.seq.busy = false → s.txLevel = .low
  burst : s.seq.busy = true →
    paired s.seq.pulses = true ∧ s.seq.pos ≤ s.seq.pulses.length ∧
      s.txLevel = if s.seq.pos % 2 = 0 then .low else .high

/-- The latch as reset leaves it (spec/10_state.md R41 to R43). -/
def Latch.unwritten (l : Latch) : Prop :=
  l.avail = false ∧ l.value = 0 ∧ l.bitLen = 0 ∧ l.delay = 0 ∧ l.proto = 0 ∧ l.rawLen = 0

/-- The latch holds one COMMIT of the decoder: its fields are the decode, at some tolerance, of its own raw snapshot,
which is longer than the commit gate (spec/44_result_store.md R230, R235, spec/43_protocol_decoder.md R208). -/
def Latch.published (l : Latch) : Prop :=
  l.proto = 1 ∧ Config.minIntervalsCommit < l.rawLen.toNat ∧
    ∃ rxTol, decodeFrame rxTol l.snapshot =
      some { value := l.value, bitLen := l.bitLen.toNat, delay := l.delay, frame := l.snapshot }

/-- The latch is as reset left it or holds one whole COMMIT (spec/20_memory.md R74, R78). -/
def State.LatchInv (s : State) : Prop := s.latch.unwritten ∨ s.latch.published

/-- The state without its trace of silent events, which is no state of the block (spec/60_exceptions.md R281). -/
def State.withoutEvents (s : State) : State := { s with events := [] }

/-- An outcome without the trace of silent events. -/
def outcomeWithoutEvents (o : Host.Outcome State Fault Refusal) : Host.Outcome State Fault Refusal :=
  match o with
  | .next s => .next s.withoutEvents
  | .fault f => .fault f
  | .refused r => .refused r

end Sys2Proof.Machine
end

