-- ==== Sys2Proof/Certificates/Slice0/Obligations.lean ====
section
/-! DEFINITION. The statements for the provers, in the order of OBLIGATIONS.json. Each docstring names the rule it
formalises. The observation fields (`portLog`, `responses`, `events`) of a next state are written out with the rest. -/

open Sys2Proof Sys2Proof.Machine

/-! ### Reset, configuration parameters, presets -/

/-- The reset value of every register (spec/70_reset_and_hazards.md R320, spec/10_state.md R20). -/
def Obligations.ResetLeavesSpecValues : Prop :=
  State.reset.txPin = { valid := false, pin := 0 } ∧ State.reset.proto = 1 ∧ State.reset.plen = 350 ∧
  State.reset.repeatCount = 10 ∧ State.reset.rxTol = 60 ∧
  State.reset.rxCtl = { en := false, live := false, pin := 0 } ∧
  State.reset.cls = { timings := List.replicate 67 0, cc := 0, lastT := 0, rpt := 0 } ∧
  State.reset.latch =
    { avail := false, value := 0, bitLen := 0, delay := 0, proto := 0, rawLen := 0, raw := List.replicate 67 0 } ∧
  State.reset.seq = { busy := false, susp := false, pos := 0, pulses := [] } ∧ State.reset.txLevel = .low

/-- After reset the block has called nothing, waits, and loses every edge (R321, R170). The model's own choice enters by
log entry 1. -/
def Obligations.ResetMakesNoPortCallAndWaits : Prop :=
  State.reset.portLog = [] ∧ step State.reset = .next State.reset ∧
  ∀ t, exec (.edge t) State.reset = .next State.reset

/-- The preset table (spec/10_state.md R30) and the record in force (R31). -/
def Obligations.PresetsGiveEffectiveParameters : Prop :=
  Config.preset 1 = some ⟨1, 3, 3, 1, 1, 31, 350⟩ ∧ Config.preset 2 = some ⟨1, 2, 2, 1, 1, 10, 650⟩ ∧
  (∀ id : BitVec 16, id ≠ 1 → id ≠ 2 → Config.preset id = none) ∧
  ∀ s : State,
    s.params = (Config.preset s.proto).map fun m => { id := s.proto, plen := s.plen, mult := m }

/-! ### Encoding -/

/-- Decoding the code of a well-formed operation gives it back, for every operation and every operand. -/
def Obligations.DecodeOfEncodeIsIdentity : Prop :=
  ∀ i : Instr, i.wellFormed = true → decodeCode (encode i) = .ok i

/-- A code that decodes is the code of what it decodes to, which is well formed: no two codes share an operation. -/
def Obligations.EncodeOfDecodeIsIdentity : Prop :=
  ∀ (c : Code) (i : Instr), decodeCode c = .ok i → encode i = c ∧ i.wellFormed = true

/-- The field decoder of a host word is the match and mask table of spec/30_encoding.md R93, in which at most one row
selects a word (R94). -/
def Obligations.HostDecoderIsMaskTable : Prop :=
  ∀ w : HostWord,
    (∀ i, decodeHost w = .ok i → ∃ r ∈ hostTable, r.selectedBy w = true ∧ r.mnemonic = i.mnemonic) ∧
    (∀ e, decodeHost w = .error e → ∀ r ∈ hostTable, r.selectedBy w = false) ∧
    ∀ r ∈ hostTable, ∀ r' ∈ hostTable, r.selectedBy w = true → r'.selectedBy w = true → r = r'

/-- Worked words of R111 and reserved words of spec/95_test_vectors.md 2.1 decode as they say. -/
def Obligations.WorkedWordsDecodeAsSpec : Prop :=
  decodeHost 0x0100000000000004 = .ok (.setTxPin 4) ∧
  decodeHost 0x030000020000028A = .ok (.setProtocolPl 2 650) ∧
  decodeHost 0x10000018005A3C91 = .ok (.txCode 0x5A3C91 24) ∧
  decodeHost 0x1100000C00144457 = .ok (.txTristate 0x00144457 12) ∧
  decodeHost 0x2400000000000000 = .ok .rxClear ∧
  decodeHost 0x2101000000000000 = .error (.hostReservedBits 0x21) ∧
  decodeHost 0x1000004000000001 = .error (.hostReservedBits 0x10) ∧
  decodeHost 0x0000000000000000 = .error (.hostOpcode 0) ∧
  decodeMicro 0b1001 = .ok .commit ∧ decodeMicro 0b0011 = .error (.microCode 0b0011)

/-- The string form of TX_TRISTATE packs its first symbol in the most significant pair (R98, R110). -/
def Obligations.PackedStringHoldsSymbolsInOrder : Prop :=
  ∀ (s : List Symbol) (k : Nat) (x : Symbol), s.length ≤ 16 → s[k]? = some x →
    symbolAt (packSymbols s) s.length k = symbolCode x

/-- The expansions of the pseudo-operations, and the strings that the assembler refuses (R108, R110). -/
def Obligations.PseudoOperationsExpandAsSpec : Prop :=
  (∀ s : List Symbol, 1 ≤ s.length → s.length ≤ 16 →
    expandPseudo (.txTristateString s) = some [.txTristate (packSymbols s) s.length]) ∧
  (∀ s : List Symbol, s.length = 0 ∨ 16 < s.length → expandPseudo (.txTristateString s) = none) ∧
  (∀ pin, expandPseudo (.rxReadClear pin) = some [.rxDisable, .rxTake, .rxClear, .rxEnable pin]) ∧
  (∀ value len count, len < 64 →
    expandPseudo (.transmit value len count) = some [.setRepeat count, .txCode value len]) ∧
  ∀ id pulseUs, expandPseudo (.setProtocolTwo id pulseUs) = some [.setProtocolPl id pulseUs]

/-! ### The step -/

/-- A step runs the operation that the next code decodes to, on the state with that code taken; a command word or a
micro-operation code runs only outside a burst. The model's own choice enters by log entries 1, 3. -/
def Obligations.StepRunsDecodedCode : Prop :=
  ∀ (s : State) (c : Code) (rest : List Input) (i : Instr),
    s.inputs = .code c :: rest → (s.seq.busy = false ∨ c.format = .edge) → decodeCode c = .ok i →
    step s = exec i { s with inputs := rest }

/-- A reserved command word is a no-op with response `NONE` (spec/30_encoding.md R94, R95); the trace records event 9.
The model's own choice enters by log entry 7. -/
def Obligations.ReservedCommandWordIsNoOp : Prop :=
  ∀ (s : State) (w : HostWord) (rest : List Input) (e : Reject),
    s.inputs = .code (.host w) :: rest → s.seq.busy = false → decodeHost w = .error e →
    step s = .next { s with
      inputs := rest, responses := s.responses ++ [.none], events := s.events ++ [.reservedCommandWord] }

/-- With nothing to take and no burst in progress the block waits with no state change (spec/60_exceptions.md R289); a
turn then only passes. The model's own choice enters by log entry 1. -/
def Obligations.IdleBlockWaits : Prop :=
  ∀ s : State, s.seq.busy = false →
    (s.inputs = [] → step s = .next s) ∧
    ∀ rest, s.inputs = .turn :: rest → step s = .next { s with inputs := rest }

/-- A command word that stands first during a burst is not accepted: the step is the sequencer's and the word stays
(spec/41_transmission_controller.md R141, spec/60_exceptions.md R303). The model's own choice enters by log entry 10. -/
def Obligations.CommandWaitsForBurst : Prop :=
  ∀ (s : State) (w : HostWord) (rest : List Input),
    s.inputs = .code (.host w) :: rest → s.seq.busy = true → s.LineInv →
    ∃ t, step s = .next t ∧ t.inputs = s.inputs ∧
      (s.seq.pos < s.seq.pulses.length → t.seq = { s.seq with pos := s.seq.pos + 1 } ∧ t.responses = s.responses) ∧
      (s.seq.pos = s.seq.pulses.length → t.seq.busy = false ∧ t.responses = s.responses ++ [.none])

/-- A pulse step (spec/41_transmission_controller.md R145). -/
def Obligations.PulseStepDrivesLine : Prop :=
  ∀ (s : State) (p : Pulse), s.seq.busy = true → s.seq.pulses[s.seq.pos]? = some p →
    s.sequencerTurn = .next { s with
      portLog := s.portLog ++ [.writeLevel s.txPin.pin p.level, .delayMicroseconds p.duration]
      txLevel := p.level
      seq := { s.seq with pos := s.seq.pos + 1 } }

/-- The end step (R146): reception is restored when the burst suspended it, and no classifier register changes. -/
def Obligations.EndStepRestoresReception : Prop :=
  ∀ s : State, s.seq.busy = true → s.seq.pos = s.seq.pulses.length →
    s.sequencerTurn = .next { s with
      portLog := if s.seq.susp then s.portLog ++ [.registerEdgeCallback s.rxCtl.pin] else s.portLog
      rxCtl := if s.seq.susp then { s.rxCtl with live := true } else s.rxCtl
      seq := { s.seq with busy := false, susp := false }
      responses := s.responses ++ [.none] }

/-! ### Configuration and receive control -/

/-- SET_TX_PIN (spec/45_host_configuration.md R250). -/
def Obligations.SetTxPinConfiguresOutput : Prop :=
  ∀ (s : State) (pin : Pin),
    exec (.setTxPin pin) s = .next { s with
      txPin := { valid := true, pin := pin }
      portLog := s.portLog ++ [.configureOutput pin]
      responses := s.responses ++ [.none] }

/-- SET_PROTOCOL (R251), for ids 1 and 2 and for every other id. -/
def Obligations.SetProtocolLoadsPresetLength : Prop :=
  ∀ (s : State) (id : BitVec 16),
    exec (.setProtocol id) s = .next { s with
      proto := id
      plen := if id = 1 then 350 else if id = 2 then 650 else s.plen
      responses := s.responses ++ [.none] }

/-- SET_PROTOCOL_PL, SET_REPEAT and SET_RX_TOLERANCE store their operands as given (R252, R253, R254). -/
def Obligations.ConfigurationOperandsAreStored : Prop :=
  ∀ s : State,
    (∀ id pulseUs, exec (.setProtocolPl id pulseUs) s =
      .next { s with proto := id, plen := pulseUs, responses := s.responses ++ [.none] }) ∧
    (∀ count, exec (.setRepeat count) s = .next { s with repeatCount := count, responses := s.responses ++ [.none] }) ∧
    ∀ percent, exec (.setRxTolerance percent) s = .next { s with rxTol := percent, responses := s.responses ++ [.none] }

/-- RX_ENABLE (R255), live or not. -/
def Obligations.RxEnableRegistersPin : Prop :=
  ∀ (s : State) (pin : Pin),
    exec (.rxEnable pin) s = .next { s with
      rxCtl := { en := true, live := true, pin := pin }
      portLog := s.portLog ++ (if s.rxCtl.live then [.unregisterEdgeCallback s.rxCtl.pin] else []) ++
        [.configureInput pin, .registerEdgeCallback pin]
      responses := s.responses ++ [.none] }

/-- RX_DISABLE (R256): the enabled and the idempotent case. -/
def Obligations.RxDisableUnregistersPin : Prop :=
  ∀ s : State,
    exec .rxDisable s = .next { s with
      rxCtl := if s.rxCtl.en then { s.rxCtl with en := false, live := false } else s.rxCtl
      portLog := s.portLog ++ (if s.rxCtl.en then [.unregisterEdgeCallback s.rxCtl.pin] else [])
      responses := s.responses ++ [.none] }

/-- While reception is not live, any number of edges of the line changes nothing (spec/42_edge_classifier.md R170,
spec/70_reset_and_hazards.md R332). The model's own choice enters by log entry 1. -/
def Obligations.EdgesAreLostWhileNotLive : Prop :=
  ∀ (ts : List Micros) (rest : List Input) (s : State), s.rxCtl.live = false → s.inputs = edgeInputs ts ++ rest →
    Sys2Proof.core.run ts.length s = .next { s with inputs := rest }

/-! ### The result store -/

/-- RX_AVAILABLE and RX_TAKE respond and change no register (spec/44_result_store.md R231, R232). -/
def Obligations.ResultReadsOnlyRespond : Prop :=
  ∀ s : State,
    exec .rxAvailable s = .next { s with responses := s.responses ++ [.avail s.latch.avail] } ∧
    exec .rxTake s = .next { s with
      responses := s.responses ++
        [.result s.latch.value s.latch.bitLen s.latch.delay s.latch.proto s.latch.rawLen
          (s.latch.raw.take s.latch.rawLen.toNat)] }

/-- RX_CLEAR clears the flag and nothing else (R233). -/
def Obligations.RxClearClearsOnlyAvail : Prop :=
  ∀ s : State,
    exec .rxClear s = .next { s with
      latch := { s.latch with avail := false }, responses := s.responses ++ [.none] }

/-- COMMIT (R230): every result field, the snapshot entry by entry, and `AVAIL`, for a frame whose length fits the 8-bit
`RES_RAWLEN` and the array. The model's own choice enters by log entries 4, 6. -/
def Obligations.CommitPublishesPassedResult : Prop :=
  ∀ s : State, s.commitArgs.frame.length < 256 → s.commitArgs.bitLen < 256 →
    s.commitArgs.frame.length ≤ s.latch.raw.length →
    ∃ raw : List Micros,
      exec .commit s = .next { s with
        latch :=
          { avail := true, value := s.commitArgs.value, bitLen := BitVec.ofNat 8 s.commitArgs.bitLen
            delay := s.commitArgs.delay, proto := 1, rawLen := BitVec.ofNat 8 s.commitArgs.frame.length, raw := raw } } ∧
      raw.length = s.latch.raw.length ∧
      (∀ i, i < s.commitArgs.frame.length → raw[i]? = s.commitArgs.frame[i]?) ∧
      ∀ i, s.commitArgs.frame.length ≤ i → raw[i]? = s.latch.raw[i]?

/-! ### The pulse encoder -/

/-- The pulse lists of the seven micro-operations, and the empty list of an unsupported protocol
(spec/40_pulse_encoder.md R120 to R126, R129, R130). -/
def Obligations.EncoderPulseLists : Prop :=
  ∀ p : Params,
    let zero : List Pulse := [⟨.high, p.mult.zeroHigh * p.plen.toNat⟩, ⟨.low, p.mult.zeroLow * p.plen.toNat⟩]
    let one : List Pulse := [⟨.high, p.mult.oneHigh * p.plen.toNat⟩, ⟨.low, p.mult.oneLow * p.plen.toNat⟩]
    enc .bit0 (some p) = zero ∧ enc .bit1 (some p) = one ∧
    enc .sync (some p) = [⟨.high, p.mult.syncHigh * p.plen.toNat⟩, ⟨.low, p.mult.syncLow * p.plen.toNat⟩] ∧
    enc .symZero (some p) = zero ++ zero ∧ enc .symFloat (some p) = zero ++ one ∧
    enc .symOne (some p) = one ++ one ∧ enc .sym10 (some p) = one ++ zero ∧
    ∀ u, enc u none = []

/-- Each encoder micro-operation, run on its own, writes its pulses to the transmit pin in order and changes nothing
else; the line ends LOW, or is untouched when the protocol is unsupported (R127, R129). The model's own choice enters by
log entries 3, 14. -/
def Obligations.EncoderMicroOpsEmitTheirPulses : Prop :=
  ∀ (s : State) (u : EncOp) (i : Instr),
    (u, i) ∈ [(EncOp.bit0, Instr.emitBit0), (.bit1, .emitBit1), (.sync, .emitSync), (.symZero, .emitSymZero),
      (.symFloat, .emitSymFloat), (.sym10, .emitSym10), (.symOne, .emitSymOne)] →
    exec i s = .next { s with
      portLog := s.portLog ++ (enc u s.params).flatMap (pulseCalls s.txPin.pin)
      txLevel := if s.proto = 1 ∨ s.proto = 2 then .low else s.txLevel }

/-! ### The transmission controller -/

/-- The start step of TX_CODE (spec/41_transmission_controller.md R144, R147). -/
def Obligations.TxCodeStartsBurst : Prop :=
  ∀ (s : State) (value : BitVec 32) (len : Nat), 1 ≤ len → len ≤ 32 → s.txPin.valid = true →
    (s.proto = 1 ∨ s.proto = 2) → s.repeatCount ≠ 0 →
    exec (.txCode value len) s = .next { s with
      seq :=
        { busy := true, susp := s.rxCtl.live, pos := 0
          pulses := burst (codeFrameOps value len) s.params s.repeatCount.toNat }
      rxCtl := { s.rxCtl with live := false }
      portLog := s.portLog ++ (if s.rxCtl.live then [.unregisterEdgeCallback s.rxCtl.pin] else []) }

/-- The start step of TX_TRISTATE (R144, R148). -/
def Obligations.TxTristateStartsBurst : Prop :=
  ∀ (s : State) (packed : BitVec 32) (count : Nat), 1 ≤ count → count ≤ 16 → s.txPin.valid = true →
    (s.proto = 1 ∨ s.proto = 2) → s.repeatCount ≠ 0 →
    exec (.txTristate packed count) s = .next { s with
      seq :=
        { busy := true, susp := s.rxCtl.live, pos := 0
          pulses := burst (tristateFrameOps packed count) s.params s.repeatCount.toNat }
      rxCtl := { s.rxCtl with live := false }
      portLog := s.portLog ++ (if s.rxCtl.live then [.unregisterEdgeCallback s.rxCtl.pin] else []) }

/-- A transmit command that cannot transmit is a silent no-op with response `NONE`: only the response and the event
trace change (R143, R147, R148, R152). The model's own choice enters by log entry 7. -/
def Obligations.TransmitThatCannotIsSilent : Prop :=
  ∀ (s : State) (value : BitVec 32) (len : Nat),
    (len = 0 ∨ 32 < len ∨ s.txPin.valid = false ∨ (s.proto ≠ 1 ∧ s.proto ≠ 2) ∨ s.repeatCount = 0) →
    ∃ e : Event, exec (.txCode value len) s = .next { s with
      responses := s.responses ++ [.none], events := s.events ++ [e] }

/-- TX_TRISTATE of `c` symbols is TX_CODE of the same value and `2c` bits, in every state (R148). -/
def Obligations.TristateIsCodeOfTwiceTheBits : Prop :=
  ∀ (s : State) (packed : BitVec 32) (count : Nat),
    exec (.txTristate packed count) s = exec (.txCode packed (2 * count)) s

/-- The pulse list of a burst: `N (2L + 2)` pulses in HIGH, LOW pairs (R142, R150, spec/40_pulse_encoder.md R128). -/
def Obligations.BurstIsPairsEndingLow : Prop :=
  ∀ (value : BitVec 32) (len n : Nat) (p : Params),
    (burst (codeFrameOps value len) (some p) n).length = n * (2 * len + 2) ∧
    paired (burst (codeFrameOps value len) (some p) n) = true ∧
    (0 < n → (burst (codeFrameOps value len) (some p) n).getLast? =
      some ⟨.low, p.mult.syncLow * p.plen.toNat⟩)

/-- A burst is empty exactly when `N = 0` or the protocol is unsupported (R143). -/
def Obligations.BurstEmptyExactlyWhen : Prop :=
  ∀ (value : BitVec 32) (len n : Nat) (params : Option Params),
    burst (codeFrameOps value len) params n = [] ↔ n = 0 ∨ params = none

/-- The duration of a burst of protocol 1 and of protocol 2 (R149). -/
def Obligations.BurstDurationFormula : Prop :=
  ∀ (value : BitVec 32) (len n : Nat) (plen : BitVec 32),
    ((burst (codeFrameOps value len) (some ⟨1, plen, Config.preset1⟩) n).map Pulse.duration).sum =
      n * (4 * len + 32) * plen.toNat ∧
    ((burst (codeFrameOps value len) (some ⟨2, plen, Config.preset2⟩) n).map Pulse.duration).sum =
      n * (3 * len + 11) * plen.toNat

/-- A whole burst, from its command word to its end step: the Port calls are the suspension, every pulse in order, and
the restoration; the classifier, the latch and the configuration are as before; the one response comes at the end
(R141, R144, R145, R146). Edges and turns may stand between the command and what follows it, with no more turns than
pulses: the edges are lost (spec/42_edge_classifier.md R170), one step each, wherever they fall among the pulses. What
follows them is nothing or a command word, which waits. The model's own choice enters by log entries 1, 10. -/
def Obligations.BurstRunsToItsEnd : Prop :=
  ∀ (s : State) (value : BitVec 32) (len : Nat) (during rest : List Input), 1 ≤ len → len ≤ 32 → s.seq.busy = false →
    s.txPin.valid = true → (s.proto = 1 ∨ s.proto = 2) → s.repeatCount ≠ 0 →
    s.inputs = .code (encode (.txCode value len)) :: (during ++ rest) →
    during.all (fun x => x.isEdge || x.isTurn) = true →
    (∀ x, rest.head? = some x → ∃ w, x = .code (.host w)) →
    let ps := burst (codeFrameOps value len) s.params s.repeatCount.toNat
    during.countP Input.isTurn ≤ ps.length →
    Sys2Proof.core.run (ps.length + 2 + during.countP Input.isEdge) s = .next { s with
      inputs := rest
      portLog := s.portLog ++ (if s.rxCtl.live then [.unregisterEdgeCallback s.rxCtl.pin] else []) ++
        ps.flatMap (pulseCalls s.txPin.pin) ++
        (if s.rxCtl.live then [.registerEdgeCallback s.rxCtl.pin] else [])
      seq := { busy := false, susp := false, pos := ps.length, pulses := ps }
      txLevel := .low
      responses := s.responses ++ [.none] }

/-! ### The edge classifier -/

/-- The sync predicate, with the source's bounds (spec/42_edge_classifier.md R172). -/
def Obligations.SyncPredicateBounds : Prop :=
  ∀ d prev : Micros, isSync d prev = true ↔
    (100000 ≤ d.toNat ∧ 100000 ≤ prev.toNat) ∨ (5000 < d.toNat ∧ 5000 < prev.toNat ∧ prev.toNat < 100000)

/-- An ORDINARY interval is appended (R178), with `LAST_T` written (R171). The model's own choice enters by log entry 9.
-/
def Obligations.OrdinaryIntervalIsAppended : Prop :=
  ∀ (s : State) (t : Micros), s.rxCtl.live = true → (t - s.cls.lastT).toNat ≤ 5000 → s.cls.cc ≠ s.cap →
    exec (.edge t) s = .next { s with
      cls :=
        { timings := s.cls.timings.set s.cls.cc (t - s.cls.lastT), cc := s.cls.cc + 1, lastT := t, rpt := s.cls.rpt }
      portLog := s.portLog ++ [.nowMicroseconds t] }

/-- An ORDINARY interval into a full buffer is discarded and resets the classifier (R178). The model's own choice enters
by log entries 7, 9. -/
def Obligations.FullBufferHardResets : Prop :=
  ∀ (s : State) (t : Micros), s.rxCtl.live = true → (t - s.cls.lastT).toNat ≤ 5000 → s.cls.cc = s.cap →
    exec (.edge t) s = .next { s with
      cls := { timings := s.cls.timings, cc := 0, lastT := t, rpt := 0 }
      portLog := s.portLog ++ [.nowMicroseconds t], events := s.events ++ [.bufferOverflow] }

/-- A long interval that is no sync resets the classifier and opens a frame (R177). The model's own choice enters by log
entries 7, 9. -/
def Obligations.NoiseIntervalOpensFrame : Prop :=
  ∀ (s : State) (t : Micros), s.rxCtl.live = true → 5000 < (t - s.cls.lastT).toNat →
    isSync (t - s.cls.lastT) (s.cls.timings.headD 0) = false →
    exec (.edge t) s = .next { s with
      cls := { timings := s.cls.timings.set 0 (t - s.cls.lastT), cc := 1, lastT := t, rpt := 0 }
      portLog := s.portLog ++ [.nowMicroseconds t], events := s.events ++ [.spuriousNoise] }

/-- A sync gap that is not the first of its run, or that closes fewer than 21 edges, restarts the frame with no DECODE,
and `RPT` saturates at 255 (R175, R176, spec/10_state.md R39). The model's own choice enters by log entries 7, 9. -/
def Obligations.UnconfirmedSyncRestartsFrame : Prop :=
  ∀ (s : State) (t : Micros), s.rxCtl.live = true →
    isSync (t - s.cls.lastT) (s.cls.timings.headD 0) = true → (s.cls.rpt ≠ 0 ∨ s.cls.cc < 21) →
    exec (.edge t) s = .next { s with
      cls :=
        { timings := s.cls.timings.set 0 (t - s.cls.lastT), cc := 1, lastT := t
          rpt := BitVec.ofNat 8 (min (s.cls.rpt.toNat + 1) 255) }
      portLog := s.portLog ++ [.nowMicroseconds t], events := s.events ++ [.repeatNotConfirmed] }

/-- The first sync gap of a run that closes at least 21 edges hands the frame `TIMINGS[0 .. CC-2]` to the decoder before
the restart: a rejection and a frame below the gate write no register of the latch, a longer accepted frame is committed
(R175, R176, spec/43_protocol_decoder.md R200, R205, R208, spec/44_result_store.md R230). The model's own choice enters
by log entries 4, 7, 9. -/
def Obligations.ConfirmedSyncHandsFrameOff : Prop :=
  ∀ (s : State) (t : Micros), s.rxCtl.live = true →
    isSync (t - s.cls.lastT) (s.cls.timings.headD 0) = true → s.cls.rpt = 0 → 21 ≤ s.cls.cc →
    exec (.edge t) s = .next (
      let restarted : State := { s with
        cls := { timings := s.cls.timings.set 0 (t - s.cls.lastT), cc := 1, lastT := t, rpt := 1 }
        portLog := s.portLog ++ [.nowMicroseconds t] }
      match decodeFrame s.rxTol (s.cls.timings.take (s.cls.cc - 1)) with
      | none => { restarted with events := s.events ++ [.malformedFrame] }
      | some r =>
        if 47 < r.frame.length then { restarted with commitArgs := r, latch := s.latch.publish r }
        else { restarted with events := s.events ++ [.belowCommitGate] })

/-- A run of sync gaps hands off at most one frame: with `RPT >= 1` no edge changes the latch (R176, R186). The model's
own choice enters by log entry 4. -/
def Obligations.LaterSyncsOfRunCommitNothing : Prop :=
  ∀ (s : State) (t : Micros), s.cls.rpt ≠ 0 →
    ∃ s', exec (.edge t) s = .next s' ∧ s'.latch = s.latch ∧ s'.commitArgs = s.commitArgs

/-- From any live state, an interval of 200000 and then one of 10000 leave the state after a first sync (R181). -/
def Obligations.TwoGapsHealClassifier : Prop :=
  ∀ s : State, s.rxCtl.live = true → s.IndexInv →
    ∃ s₁ s₂, exec (.edge (s.cls.lastT + 200000)) s = .next s₁ ∧
      exec (.edge (s.cls.lastT + 210000)) s₁ = .next s₂ ∧
      s₂.cls = { timings := s.cls.timings.set 0 10000, cc := 1, lastT := s.cls.lastT + 210000, rpt := 0 }

/-- A frame with as many ORDINARY intervals after its opening gap as the buffer has entries is never decoded: it fills
the buffer, overflows, and leaves the opening gap at index 0 (R187). The model's own choice enters by log entry 1. -/
def Obligations.OverlongFrameIsNeverDecoded : Prop :=
  ∀ (s : State) (ds : List Nat) (t0 : Micros), s.rxCtl.live = true → s.IndexInv → s.cls.cc = 1 →
    ds.length = s.cap → (∀ d ∈ ds, d ≤ 5000) → s.cls.lastT = t0 →
    s.inputs = edgeInputs ((List.range s.cap).map fun k => t0 + BitVec.ofNat 32 (ds.take (k + 1)).sum) →
    ∃ t, Sys2Proof.core.run s.cap s = .next t ∧ t.inputs = [] ∧ t.cls.cc = 0 ∧ t.cls.rpt = 0 ∧
      t.cls.timings.headD 0 = s.cls.timings.headD 0 ∧ t.latch = s.latch

/-! ### The protocol decoder -/

/-- The closed windows and the order of the two tests (spec/43_protocol_decoder.md R202, R203). -/
def Obligations.PairClassificationWindows : Prop :=
  ∀ (period tol : Nat) (a b : Micros),
    let isNear (x : Micros) (c : Nat) : Prop := (c : Int) - tol ≤ x.toNat ∧ (x.toNat : Int) ≤ c + tol
    (classifyPair period tol a b = some false ↔ isNear a period ∧ isNear b (3 * period)) ∧
    (classifyPair period tol a b = some true ↔
      ¬(isNear a period ∧ isNear b (3 * period)) ∧ isNear a (3 * period) ∧ isNear b period) ∧
    (tol < period → ¬(isNear a period ∧ isNear a (3 * period)))

/-- A frame of odd length is accepted exactly when every pair after the sync is a bit, its value is the bits read most
significant first modulo `2^32`; one pair of neither bit rejects the whole frame (R204 to R207). -/
def Obligations.FrameDecodesToItsBits : Prop :=
  ∀ (rxTol : BitVec 8) (gap : Micros) (pairs : List (Micros × Micros)),
    let period := gap.toNat / 31
    let tol := period * rxTol.toNat / 100
    let frame := gap :: pairs.flatMap fun q => [q.1, q.2]
    (∀ bits : List Bool, (pairs.map fun q => classifyPair period tol q.1 q.2) = bits.map some →
      ∃ r, decodeFrame rxTol frame = some r ∧
        r.value.toNat = (bits.foldl (fun c b => 2 * c + b.toNat) 0) % 2 ^ 32 ∧
        r.bitLen = pairs.length ∧ r.delay.toNat = period ∧ r.frame = frame) ∧
    (none ∈ (pairs.map fun q => classifyPair period tol q.1 q.2) → decodeFrame rxTol frame = none)

/-- DECODE on its own (R200): the frame `TIMINGS[0 .. CC-2]` is rejected (an even length always), accepted below the
gate, or committed; it writes nothing but through COMMIT. The model's own choice enters by log entries 3, 4, 7, 13. -/
def Obligations.DecodeRunsToItsVerdict : Prop :=
  ∀ s : State,
    let frame := s.cls.timings.take (s.cls.cc - 1)
    (frame.length % 2 = 0 → decodeFrame s.rxTol frame = none) ∧
    (decodeFrame s.rxTol frame = none → exec .decode s = .next { s with events := s.events ++ [.malformedFrame] }) ∧
    ∀ r, decodeFrame s.rxTol frame = some r →
      (frame.length ≤ 47 → exec .decode s = .next { s with events := s.events ++ [.belowCommitGate] }) ∧
      (47 < frame.length → exec .decode s = .next { s with commitArgs := r, latch := s.latch.publish r })

/-- The frame that a protocol-1 transmission of a code makes at a receiver decodes to that code (R210, one frame). -/
def Obligations.TransmittedFrameDecodesToItsCode : Prop :=
  ∀ (value : BitVec 32) (len : Nat) (plen : BitVec 32) (rxTol : BitVec 8), 1 ≤ len → len ≤ 32 →
    value.toNat < 2 ^ len → 1 ≤ plen.toNat → 31 * plen.toNat < 2 ^ 32 → rxTol.toNat ≤ 199 →
    let bitPulses := ((List.range len).reverse.map (bitOp value)).flatMap fun u => enc u (some ⟨1, plen, Config.preset1⟩)
    let frame := BitVec.ofNat 32 (31 * plen.toNat) :: bitPulses.map fun p => BitVec.ofNat 32 p.duration
    decodeFrame rxTol frame = some { value := value, bitLen := len, delay := plen, frame := frame }

/-- The round trip of R210: the edges of a whole burst of at least three repetitions, after a silence of at least 100000
µs, leave the transmitted code in the latch of a receiver in any classifier state. The model's own choice enters by log
entry 1. -/
def Obligations.TransmittedCodeIsReceived : Prop :=
  ∀ (s : State) (value : BitVec 32) (len n : Nat) (plen : BitVec 32) (t0 : Micros),
    s.rxCtl.live = true → s.IndexInv → s.cap = 67 → s.rxTol.toNat ≤ 199 → 24 ≤ len → len ≤ 32 →
    value.toNat < 2 ^ len → 162 ≤ plen.toNat → plen.toNat ≤ 1666 → 3 ≤ n → 100000 ≤ (t0 - s.cls.lastT).toNat →
    s.inputs = edgeInputs (edgeTimes t0 (burst (codeFrameOps value len) (some ⟨1, plen, Config.preset1⟩) n)) →
    ∃ t, Sys2Proof.core.run s.inputs.length s = .next t ∧ t.inputs = [] ∧ t.latch.avail = true ∧
      t.latch.value = value ∧ t.latch.bitLen.toNat = len ∧ t.latch.delay = plen ∧ t.latch.proto = 1 ∧
      t.latch.rawLen.toNat = 2 * len + 1

/-! ### Invariants of every step -/

/-- The reset state meets every invariant below. The model's own choice enters by log entry 3. -/
def Obligations.ResetMeetsInvariants : Prop :=
  State.reset.IndexInv ∧ State.reset.FrameInv ∧ State.reset.ReceptionInv ∧ State.reset.LineInv ∧
  State.reset.LatchInv ∧ State.reset.External

/-- No index passes the storage arrays, and the arrays keep their size (spec/10_state.md R36, R37,
spec/42_edge_classifier.md R179). The model's own choice enters by log entry 4. -/
def Obligations.StepKeepsIndexInv : Prop :=
  ∀ s t : State, s.IndexInv → step s = .next t → t.IndexInv ∧ t.cap = s.cap

/-- The entries after the first of a frame candidate are ORDINARY intervals (spec/42_edge_classifier.md R180). -/
def Obligations.StepKeepsFrameInv : Prop :=
  ∀ s t : State, s.FrameInv → step s = .next t → t.FrameInv

/-- `LIVE = EN` outside a suspending burst, and never live in a burst (spec/10_state.md R26). -/
def Obligations.StepKeepsReceptionInv : Prop :=
  ∀ s t : State, s.ReceptionInv → step s = .next t → t.ReceptionInv

/-- The line is LOW between bursts, and in a burst follows `PULSES` (spec/10_state.md R45, R46). -/
def Obligations.StepKeepsLineInv : Prop :=
  ∀ s t : State, s.LineInv → step s = .next t → t.LineInv

/-- On the inputs of the two agents, the latch is as reset left it or holds one whole decode of its own snapshot
(spec/20_memory.md R74, R78, spec/44_result_store.md R235). The model's own choice enters by log entries 3, 6. -/
def Obligations.StepKeepsLatchInv : Prop :=
  ∀ s t : State, s.LatchInv → s.IndexInv → s.cap ≤ 256 → s.External → step s = .next t → t.LatchInv

/-! ### Whole-machine rules -/

/-- On the inputs of the two agents no step stops: the block raises nothing (spec/60_exceptions.md R280). The model's
own choice enters by log entries 3, 11. -/
def Obligations.NoStepStopsOnAgentInputs : Prop :=
  ∀ s : State, s.External → s.LineInv → ∃ t, step s = .next t ∧ t.External

/-- Who writes what (spec/10_state.md R48, R20, R21, R26, R45, R46): the classifier and the result fields only a
delivered edge; `AVAIL` set by a delivered edge and cleared by RX_CLEAR; each configuration register its own commands;
`RXCTL` the receive commands and the two ends of a burst; `TXSEQ` the transmit commands and the sequencer; `TXLEVEL` a
pulse step. The model's own choice enters by log entry 3. -/
def Obligations.EachRegisterHasItsWriters : Prop :=
  ∀ s t : State, s.External → step s = .next t →
    (t.cls ≠ s.cls → s.TakesEdge) ∧
    ({ t.latch with avail := false } ≠ { s.latch with avail := false } → s.TakesEdge) ∧
    (s.latch.avail = false → t.latch.avail = true → s.TakesEdge) ∧
    (s.latch.avail = true → t.latch.avail = false → s.TakesCommand .rxClear) ∧
    (t.txPin ≠ s.txPin → ∃ pin, s.TakesCommand (.setTxPin pin)) ∧
    (t.proto ≠ s.proto → ∃ id, s.TakesCommand (.setProtocol id) ∨ ∃ us, s.TakesCommand (.setProtocolPl id us)) ∧
    (t.plen ≠ s.plen → ∃ id, s.TakesCommand (.setProtocol id) ∨ ∃ us, s.TakesCommand (.setProtocolPl id us)) ∧
    (t.repeatCount ≠ s.repeatCount → ∃ count, s.TakesCommand (.setRepeat count)) ∧
    (t.rxTol ≠ s.rxTol → ∃ percent, s.TakesCommand (.setRxTolerance percent)) ∧
    (t.rxCtl ≠ s.rxCtl →
      (∃ pin, s.TakesCommand (.rxEnable pin)) ∨ s.TakesCommand .rxDisable ∨ s.TakesTransmit ∨ s.TakesBurstEnd) ∧
    (t.seq ≠ s.seq → s.TakesTransmit ∨ s.TakesPulse ∨ s.TakesBurstEnd) ∧
    (t.txLevel ≠ s.txLevel → s.TakesPulse) ∧
    (s.TakesEdge → t.txPin = s.txPin ∧ t.rxCtl = s.rxCtl ∧ t.seq = s.seq ∧ t.txLevel = s.txLevel)

/-- An edge never reaches the transmitter: no level is written, no delay asked for, no response given
(spec/41_transmission_controller.md R151). The model's own choice enters by log entry 9. -/
def Obligations.EdgeNeverTransmits : Prop :=
  ∀ (s : State) (t : Micros), ∃ s', exec (.edge t) s = .next s' ∧
    s'.seq = s.seq ∧ s'.txLevel = s.txLevel ∧ s'.responses = s.responses ∧ s'.rxCtl = s.rxCtl ∧
    s'.portLog = s.portLog ++ (if s.rxCtl.live then [.nowMicroseconds t] else [])

/-- The trace of silent events is read by no step: two states that differ only in it step to states that differ only in
it (spec/60_exceptions.md R281). The model's own choice enters by log entry 7. -/
def Obligations.EventTraceIsNeverRead : Prop :=
  ∀ s : State, outcomeWithoutEvents (step s) = outcomeWithoutEvents (step s.withoutEvents)

/-- RX_READ_CLEAR loses no result: with any edges of the line between its four commands, the record taken is the one
cleared, and the classifier is as before (spec/30_encoding.md R110, spec/20_memory.md R79, spec/70_reset_and_hazards.md
R330). The model's own choice enters by log entry 1. -/
def Obligations.ReadClearLosesNoResult : Prop :=
  ∀ (s : State) (pin : Pin) (e₁ e₂ e₃ : List Micros) (rest : List Input), s.seq.busy = false → s.rxCtl.en = true →
    s.inputs = [.code (encode .rxDisable)] ++ edgeInputs e₁ ++ [.code (encode .rxTake)] ++ edgeInputs e₂ ++
      [.code (encode .rxClear)] ++ edgeInputs e₃ ++ [.code (encode (.rxEnable pin))] ++ rest →
    Sys2Proof.core.run (4 + e₁.length + e₂.length + e₃.length) s = .next { s with
      inputs := rest
      latch := { s.latch with avail := false }
      rxCtl := { en := true, live := true, pin := pin }
      portLog := s.portLog ++
        [.unregisterEdgeCallback s.rxCtl.pin, .configureInput pin, .registerEdgeCallback pin]
      responses := s.responses ++ [.none, s.latch.decodedResult, .none, .none] }

/-- A reserved micro-operation code, which no rule issues, stops the model by name (spec/93_implementation_defined.md).
The model's own choice enters by log entries 3, 11. -/
def Obligations.ReservedMicroOpStops : Prop :=
  ∀ (s : State) (u : MicroCode) (rest : List Input), s.inputs = .code (.micro u) :: rest → s.seq.busy = false →
    (u = 0b0011 ∨ 0b1010 ≤ u.toNat) → step s = .fault (.reservedMicroOp u)
end

