-- ==== Sys2Proof/Laws/State.lean ====
section
/-! SUPPORT. One lemma per field and update of State, true by rfl, so that no proof unfolds a record update. -/

namespace Sys2Proof.Machine

open Sys2Proof

variable (s : State)

@[simp] theorem State.withInputs_txPin (rest : List Input) : (s.withInputs rest).txPin = s.txPin := rfl
@[simp] theorem State.withInputs_proto (rest : List Input) : (s.withInputs rest).proto = s.proto := rfl
@[simp] theorem State.withInputs_plen (rest : List Input) : (s.withInputs rest).plen = s.plen := rfl
@[simp] theorem State.withInputs_repeatCount (rest : List Input) : (s.withInputs rest).repeatCount = s.repeatCount := rfl
@[simp] theorem State.withInputs_rxTol (rest : List Input) : (s.withInputs rest).rxTol = s.rxTol := rfl
@[simp] theorem State.withInputs_rxCtl (rest : List Input) : (s.withInputs rest).rxCtl = s.rxCtl := rfl
@[simp] theorem State.withInputs_cls (rest : List Input) : (s.withInputs rest).cls = s.cls := rfl
@[simp] theorem State.withInputs_latch (rest : List Input) : (s.withInputs rest).latch = s.latch := rfl
@[simp] theorem State.withInputs_seq (rest : List Input) : (s.withInputs rest).seq = s.seq := rfl
@[simp] theorem State.withInputs_txLevel (rest : List Input) : (s.withInputs rest).txLevel = s.txLevel := rfl
@[simp] theorem State.withInputs_cap (rest : List Input) : (s.withInputs rest).cap = s.cap := rfl
@[simp] theorem State.withInputs_commitArgs (rest : List Input) : (s.withInputs rest).commitArgs = s.commitArgs := rfl
@[simp] theorem State.withInputs_inputs (rest : List Input) : (s.withInputs rest).inputs = rest := rfl
@[simp] theorem State.withInputs_portLog (rest : List Input) : (s.withInputs rest).portLog = s.portLog := rfl
@[simp] theorem State.withInputs_responses (rest : List Input) : (s.withInputs rest).responses = s.responses := rfl
@[simp] theorem State.withInputs_events (rest : List Input) : (s.withInputs rest).events = s.events := rfl

@[simp] theorem State.callPort_txPin (c : PortCall) : (s.callPort c).txPin = s.txPin := rfl
@[simp] theorem State.callPort_proto (c : PortCall) : (s.callPort c).proto = s.proto := rfl
@[simp] theorem State.callPort_plen (c : PortCall) : (s.callPort c).plen = s.plen := rfl
@[simp] theorem State.callPort_repeatCount (c : PortCall) : (s.callPort c).repeatCount = s.repeatCount := rfl
@[simp] theorem State.callPort_rxTol (c : PortCall) : (s.callPort c).rxTol = s.rxTol := rfl
@[simp] theorem State.callPort_rxCtl (c : PortCall) : (s.callPort c).rxCtl = s.rxCtl := rfl
@[simp] theorem State.callPort_cls (c : PortCall) : (s.callPort c).cls = s.cls := rfl
@[simp] theorem State.callPort_latch (c : PortCall) : (s.callPort c).latch = s.latch := rfl
@[simp] theorem State.callPort_seq (c : PortCall) : (s.callPort c).seq = s.seq := rfl
@[simp] theorem State.callPort_txLevel (c : PortCall) : (s.callPort c).txLevel = s.txLevel := rfl
@[simp] theorem State.callPort_cap (c : PortCall) : (s.callPort c).cap = s.cap := rfl
@[simp] theorem State.callPort_commitArgs (c : PortCall) : (s.callPort c).commitArgs = s.commitArgs := rfl
@[simp] theorem State.callPort_inputs (c : PortCall) : (s.callPort c).inputs = s.inputs := rfl
@[simp] theorem State.callPort_portLog (c : PortCall) : (s.callPort c).portLog = s.portLog ++ [c] := rfl
@[simp] theorem State.callPort_responses (c : PortCall) : (s.callPort c).responses = s.responses := rfl
@[simp] theorem State.callPort_events (c : PortCall) : (s.callPort c).events = s.events := rfl

@[simp] theorem State.respond_txPin (r : Response) : (s.respond r).txPin = s.txPin := rfl
@[simp] theorem State.respond_proto (r : Response) : (s.respond r).proto = s.proto := rfl
@[simp] theorem State.respond_plen (r : Response) : (s.respond r).plen = s.plen := rfl
@[simp] theorem State.respond_repeatCount (r : Response) : (s.respond r).repeatCount = s.repeatCount := rfl
@[simp] theorem State.respond_rxTol (r : Response) : (s.respond r).rxTol = s.rxTol := rfl
@[simp] theorem State.respond_rxCtl (r : Response) : (s.respond r).rxCtl = s.rxCtl := rfl
@[simp] theorem State.respond_cls (r : Response) : (s.respond r).cls = s.cls := rfl
@[simp] theorem State.respond_latch (r : Response) : (s.respond r).latch = s.latch := rfl
@[simp] theorem State.respond_seq (r : Response) : (s.respond r).seq = s.seq := rfl
@[simp] theorem State.respond_txLevel (r : Response) : (s.respond r).txLevel = s.txLevel := rfl
@[simp] theorem State.respond_cap (r : Response) : (s.respond r).cap = s.cap := rfl
@[simp] theorem State.respond_commitArgs (r : Response) : (s.respond r).commitArgs = s.commitArgs := rfl
@[simp] theorem State.respond_inputs (r : Response) : (s.respond r).inputs = s.inputs := rfl
@[simp] theorem State.respond_portLog (r : Response) : (s.respond r).portLog = s.portLog := rfl
@[simp] theorem State.respond_responses (r : Response) : (s.respond r).responses = s.responses ++ [r] := rfl
@[simp] theorem State.respond_events (r : Response) : (s.respond r).events = s.events := rfl

@[simp] theorem State.record_txPin (e : Event) : (s.record e).txPin = s.txPin := rfl
@[simp] theorem State.record_proto (e : Event) : (s.record e).proto = s.proto := rfl
@[simp] theorem State.record_plen (e : Event) : (s.record e).plen = s.plen := rfl
@[simp] theorem State.record_repeatCount (e : Event) : (s.record e).repeatCount = s.repeatCount := rfl
@[simp] theorem State.record_rxTol (e : Event) : (s.record e).rxTol = s.rxTol := rfl
@[simp] theorem State.record_rxCtl (e : Event) : (s.record e).rxCtl = s.rxCtl := rfl
@[simp] theorem State.record_cls (e : Event) : (s.record e).cls = s.cls := rfl
@[simp] theorem State.record_latch (e : Event) : (s.record e).latch = s.latch := rfl
@[simp] theorem State.record_seq (e : Event) : (s.record e).seq = s.seq := rfl
@[simp] theorem State.record_txLevel (e : Event) : (s.record e).txLevel = s.txLevel := rfl
@[simp] theorem State.record_cap (e : Event) : (s.record e).cap = s.cap := rfl
@[simp] theorem State.record_commitArgs (e : Event) : (s.record e).commitArgs = s.commitArgs := rfl
@[simp] theorem State.record_inputs (e : Event) : (s.record e).inputs = s.inputs := rfl
@[simp] theorem State.record_portLog (e : Event) : (s.record e).portLog = s.portLog := rfl
@[simp] theorem State.record_responses (e : Event) : (s.record e).responses = s.responses := rfl
@[simp] theorem State.record_events (e : Event) : (s.record e).events = s.events ++ [e] := rfl

@[simp] theorem State.emitPulse_txPin (p : Pulse) : (s.emitPulse p).txPin = s.txPin := rfl
@[simp] theorem State.emitPulse_proto (p : Pulse) : (s.emitPulse p).proto = s.proto := rfl
@[simp] theorem State.emitPulse_plen (p : Pulse) : (s.emitPulse p).plen = s.plen := rfl
@[simp] theorem State.emitPulse_repeatCount (p : Pulse) : (s.emitPulse p).repeatCount = s.repeatCount := rfl
@[simp] theorem State.emitPulse_rxTol (p : Pulse) : (s.emitPulse p).rxTol = s.rxTol := rfl
@[simp] theorem State.emitPulse_rxCtl (p : Pulse) : (s.emitPulse p).rxCtl = s.rxCtl := rfl
@[simp] theorem State.emitPulse_cls (p : Pulse) : (s.emitPulse p).cls = s.cls := rfl
@[simp] theorem State.emitPulse_latch (p : Pulse) : (s.emitPulse p).latch = s.latch := rfl
@[simp] theorem State.emitPulse_seq (p : Pulse) : (s.emitPulse p).seq = s.seq := rfl
@[simp] theorem State.emitPulse_txLevel (p : Pulse) : (s.emitPulse p).txLevel = p.level := rfl
@[simp] theorem State.emitPulse_cap (p : Pulse) : (s.emitPulse p).cap = s.cap := rfl
@[simp] theorem State.emitPulse_commitArgs (p : Pulse) : (s.emitPulse p).commitArgs = s.commitArgs := rfl
@[simp] theorem State.emitPulse_inputs (p : Pulse) : (s.emitPulse p).inputs = s.inputs := rfl
@[simp] theorem State.emitPulse_portLog (p : Pulse) : (s.emitPulse p).portLog = s.portLog ++ [.writeLevel s.txPin.pin p.level] ++ [.delayMicroseconds p.duration] := rfl
@[simp] theorem State.emitPulse_responses (p : Pulse) : (s.emitPulse p).responses = s.responses := rfl
@[simp] theorem State.emitPulse_events (p : Pulse) : (s.emitPulse p).events = s.events := rfl

@[simp] theorem State.pulseStep_txPin (p : Pulse) : (s.pulseStep p).txPin = s.txPin := rfl
@[simp] theorem State.pulseStep_proto (p : Pulse) : (s.pulseStep p).proto = s.proto := rfl
@[simp] theorem State.pulseStep_plen (p : Pulse) : (s.pulseStep p).plen = s.plen := rfl
@[simp] theorem State.pulseStep_repeatCount (p : Pulse) : (s.pulseStep p).repeatCount = s.repeatCount := rfl
@[simp] theorem State.pulseStep_rxTol (p : Pulse) : (s.pulseStep p).rxTol = s.rxTol := rfl
@[simp] theorem State.pulseStep_rxCtl (p : Pulse) : (s.pulseStep p).rxCtl = s.rxCtl := rfl
@[simp] theorem State.pulseStep_cls (p : Pulse) : (s.pulseStep p).cls = s.cls := rfl
@[simp] theorem State.pulseStep_latch (p : Pulse) : (s.pulseStep p).latch = s.latch := rfl
@[simp] theorem State.pulseStep_seq (p : Pulse) : (s.pulseStep p).seq = { s.seq with pos := s.seq.pos + 1 } := rfl
@[simp] theorem State.pulseStep_txLevel (p : Pulse) : (s.pulseStep p).txLevel = p.level := rfl
@[simp] theorem State.pulseStep_cap (p : Pulse) : (s.pulseStep p).cap = s.cap := rfl
@[simp] theorem State.pulseStep_commitArgs (p : Pulse) : (s.pulseStep p).commitArgs = s.commitArgs := rfl
@[simp] theorem State.pulseStep_inputs (p : Pulse) : (s.pulseStep p).inputs = s.inputs := rfl
@[simp] theorem State.pulseStep_portLog (p : Pulse) : (s.pulseStep p).portLog = s.portLog ++ [.writeLevel s.txPin.pin p.level] ++ [.delayMicroseconds p.duration] := rfl
@[simp] theorem State.pulseStep_responses (p : Pulse) : (s.pulseStep p).responses = s.responses := rfl
@[simp] theorem State.pulseStep_events (p : Pulse) : (s.pulseStep p).events = s.events := rfl

@[simp] theorem State.issueCommit_txPin : s.issueCommit.txPin = s.txPin := rfl
@[simp] theorem State.issueCommit_proto : s.issueCommit.proto = s.proto := rfl
@[simp] theorem State.issueCommit_plen : s.issueCommit.plen = s.plen := rfl
@[simp] theorem State.issueCommit_repeatCount : s.issueCommit.repeatCount = s.repeatCount := rfl
@[simp] theorem State.issueCommit_rxTol : s.issueCommit.rxTol = s.rxTol := rfl
@[simp] theorem State.issueCommit_rxCtl : s.issueCommit.rxCtl = s.rxCtl := rfl
@[simp] theorem State.issueCommit_cls : s.issueCommit.cls = s.cls := rfl
@[simp] theorem State.issueCommit_latch : s.issueCommit.latch = s.latch.publish s.commitArgs := rfl
@[simp] theorem State.issueCommit_seq : s.issueCommit.seq = s.seq := rfl
@[simp] theorem State.issueCommit_txLevel : s.issueCommit.txLevel = s.txLevel := rfl
@[simp] theorem State.issueCommit_cap : s.issueCommit.cap = s.cap := rfl
@[simp] theorem State.issueCommit_commitArgs : s.issueCommit.commitArgs = s.commitArgs := rfl
@[simp] theorem State.issueCommit_inputs : s.issueCommit.inputs = s.inputs := rfl
@[simp] theorem State.issueCommit_portLog : s.issueCommit.portLog = s.portLog := rfl
@[simp] theorem State.issueCommit_responses : s.issueCommit.responses = s.responses := rfl
@[simp] theorem State.issueCommit_events : s.issueCommit.events = s.events := rfl

@[simp] theorem State.withoutEvents_txPin : s.withoutEvents.txPin = s.txPin := rfl
@[simp] theorem State.withoutEvents_proto : s.withoutEvents.proto = s.proto := rfl
@[simp] theorem State.withoutEvents_plen : s.withoutEvents.plen = s.plen := rfl
@[simp] theorem State.withoutEvents_repeatCount : s.withoutEvents.repeatCount = s.repeatCount := rfl
@[simp] theorem State.withoutEvents_rxTol : s.withoutEvents.rxTol = s.rxTol := rfl
@[simp] theorem State.withoutEvents_rxCtl : s.withoutEvents.rxCtl = s.rxCtl := rfl
@[simp] theorem State.withoutEvents_cls : s.withoutEvents.cls = s.cls := rfl
@[simp] theorem State.withoutEvents_latch : s.withoutEvents.latch = s.latch := rfl
@[simp] theorem State.withoutEvents_seq : s.withoutEvents.seq = s.seq := rfl
@[simp] theorem State.withoutEvents_txLevel : s.withoutEvents.txLevel = s.txLevel := rfl
@[simp] theorem State.withoutEvents_cap : s.withoutEvents.cap = s.cap := rfl
@[simp] theorem State.withoutEvents_commitArgs : s.withoutEvents.commitArgs = s.commitArgs := rfl
@[simp] theorem State.withoutEvents_inputs : s.withoutEvents.inputs = s.inputs := rfl
@[simp] theorem State.withoutEvents_portLog : s.withoutEvents.portLog = s.portLog := rfl
@[simp] theorem State.withoutEvents_responses : s.withoutEvents.responses = s.responses := rfl
@[simp] theorem State.withoutEvents_events : s.withoutEvents.events = [] := rfl

variable (c : Classifier)

@[simp] theorem Classifier.stamp_timings (t : Micros) : (c.stamp t).timings = c.timings := rfl
@[simp] theorem Classifier.stamp_cc (t : Micros) : (c.stamp t).cc = c.cc := rfl
@[simp] theorem Classifier.stamp_lastT (t : Micros) : (c.stamp t).lastT = t := rfl
@[simp] theorem Classifier.stamp_rpt (t : Micros) : (c.stamp t).rpt = c.rpt := rfl

@[simp] theorem Classifier.openFrame_timings (d : Micros) : (c.openFrame d).timings = c.timings.set 0 d := rfl
@[simp] theorem Classifier.openFrame_cc (d : Micros) : (c.openFrame d).cc = 1 := rfl
@[simp] theorem Classifier.openFrame_lastT (d : Micros) : (c.openFrame d).lastT = c.lastT := rfl
@[simp] theorem Classifier.openFrame_rpt (d : Micros) : (c.openFrame d).rpt = c.rpt := rfl

@[simp] theorem Classifier.append_timings (d : Micros) : (c.append d).timings = c.timings.set c.cc d := rfl
@[simp] theorem Classifier.append_cc (d : Micros) : (c.append d).cc = c.cc + 1 := rfl
@[simp] theorem Classifier.append_lastT (d : Micros) : (c.append d).lastT = c.lastT := rfl
@[simp] theorem Classifier.append_rpt (d : Micros) : (c.append d).rpt = c.rpt := rfl

@[simp] theorem Classifier.hardReset_timings : c.hardReset.timings = c.timings := rfl
@[simp] theorem Classifier.hardReset_cc : c.hardReset.cc = 0 := rfl
@[simp] theorem Classifier.hardReset_lastT : c.hardReset.lastT = c.lastT := rfl
@[simp] theorem Classifier.hardReset_rpt : c.hardReset.rpt = 0 := rfl

@[simp] theorem Classifier.countSync_timings : c.countSync.timings = c.timings := rfl
@[simp] theorem Classifier.countSync_cc : c.countSync.cc = c.cc := rfl
@[simp] theorem Classifier.countSync_lastT : c.countSync.lastT = c.lastT := rfl
@[simp] theorem Classifier.countSync_rpt : c.countSync.rpt = satInc c.rpt := rfl

variable (l : Latch)

@[simp] theorem Latch.setAvail_avail : l.setAvail.avail = true := rfl
@[simp] theorem Latch.setAvail_value : l.setAvail.value = l.value := rfl
@[simp] theorem Latch.setAvail_bitLen : l.setAvail.bitLen = l.bitLen := rfl
@[simp] theorem Latch.setAvail_delay : l.setAvail.delay = l.delay := rfl
@[simp] theorem Latch.setAvail_proto : l.setAvail.proto = l.proto := rfl
@[simp] theorem Latch.setAvail_rawLen : l.setAvail.rawLen = l.rawLen := rfl
@[simp] theorem Latch.setAvail_raw : l.setAvail.raw = l.raw := rfl

@[simp] theorem Latch.clearAvail_avail : l.clearAvail.avail = false := rfl
@[simp] theorem Latch.clearAvail_value : l.clearAvail.value = l.value := rfl
@[simp] theorem Latch.clearAvail_bitLen : l.clearAvail.bitLen = l.bitLen := rfl
@[simp] theorem Latch.clearAvail_delay : l.clearAvail.delay = l.delay := rfl
@[simp] theorem Latch.clearAvail_proto : l.clearAvail.proto = l.proto := rfl
@[simp] theorem Latch.clearAvail_rawLen : l.clearAvail.rawLen = l.rawLen := rfl
@[simp] theorem Latch.clearAvail_raw : l.clearAvail.raw = l.raw := rfl

@[simp] theorem Latch.publish_avail (r : Accepted) : (l.publish r).avail = true := rfl
@[simp] theorem Latch.publish_value (r : Accepted) : (l.publish r).value = r.value := rfl
@[simp] theorem Latch.publish_bitLen (r : Accepted) : (l.publish r).bitLen = bitLenField r.bitLen := rfl
@[simp] theorem Latch.publish_delay (r : Accepted) : (l.publish r).delay = r.delay := rfl
@[simp] theorem Latch.publish_proto (r : Accepted) : (l.publish r).proto = 1 := rfl
@[simp] theorem Latch.publish_rawLen (r : Accepted) : (l.publish r).rawLen = rawLenField r.frame.length := rfl
@[simp] theorem Latch.publish_raw (r : Accepted) : (l.publish r).raw = overlay r.frame l.raw := rfl

end Sys2Proof.Machine
end

