-- ==== Sys2Proof/Laws/Ops.lean ====
section
/-! SUPPORT. One lemma per shared operation that says once everything it can do; proofs cite these instead of unfolding
the operations. -/

namespace Sys2Proof.Machine

open Sys2Proof

/-! ### Arithmetic of the classifier and the latch -/

/-- `sat_inc` over the naturals (spec/00_scope.md R9). -/
theorem satInc_toNat (rpt : BitVec 8) : (satInc rpt).toNat = min (rpt.toNat + 1) 255 := by
  have h := rpt.isLt
  simp only [satInc, Config.rptMax, BitVec.toNat_ofNat]
  omega

/-- The increment reaches 1 only from 0, so that a run is confirmed once (spec/42_edge_classifier.md R176). -/
theorem satInc_eq_one (rpt : BitVec 8) : satInc rpt = 1 ↔ rpt = 0 := by
  have h := satInc_toNat rpt
  constructor
  · intro h1
    rw [h1] at h
    apply BitVec.eq_of_toNat_eq
    have h2 : (1 : BitVec 8).toNat = 1 := rfl
    have h3 : (0 : BitVec 8).toNat = 0 := rfl
    omega
  · rintro rfl
    rfl

/-- The snapshot write keeps the array's size. -/
@[simp] theorem overlay_length (frame old : List Micros) : (overlay frame old).length = old.length := by
  simp only [overlay, List.length_append, List.length_take, List.length_drop]
  omega

/-- The snapshot write puts the frame in front when it fits. -/
theorem overlay_take (frame old : List Micros) (h : frame.length ≤ old.length) :
    (overlay frame old).take frame.length = frame := by
  have h1 : frame.take old.length = frame := List.take_of_length_le h
  simp [overlay, h1]

/-- The 8-bit length field holds any length below 256. -/
theorem rawLenField_toNat {n : Nat} (h : n < 256) : (rawLenField n).toNat = n := by
  simp only [rawLenField, h, if_true, BitVec.toNat_ofNat]
  omega

/-- The 8-bit bit-length field holds any length below 256. -/
theorem bitLenField_toNat {n : Nat} (h : n < 256) : (bitLenField n).toNat = n := by
  simp only [bitLenField, h, if_true, BitVec.toNat_ofNat]
  omega

/-- The closed frame is no longer than `CC - 1` entries. -/
theorem closedFrame_length_le (c : Classifier) : c.closedFrame.length ≤ c.cc - 1 := by
  simp [Classifier.closedFrame]

/-! ### Emission of pulses -/

/-- Emitting a list of pulses logs their calls in order and leaves the last level; nothing else changes. -/
theorem emitPulses_eq (ps : List Pulse) (s : State) :
    s.emitPulses ps = { s with
      portLog := s.portLog ++ ps.flatMap (pulseCalls s.txPin.pin)
      txLevel := (ps.getLast?.map Pulse.level).getD s.txLevel } := by
  induction ps generalizing s with
  | nil => simp [State.emitPulses]
  | cons p rest ih =>
    have h : s.emitPulses (p :: rest) = (s.emitPulse p).emitPulses rest := rfl
    rw [h, ih]
    cases rest with
    | nil => simp [State.emitPulse, State.callPort, pulseCalls]
    | cons q rest =>
      rw [List.getLast?_cons_cons]
      cases hq : (q :: rest).getLast? with
      | none => simp at hq
      | some x => simp [State.emitPulse, State.callPort, pulseCalls]

/-- A pulse step, written out (spec/41_transmission_controller.md R145). -/
theorem pulseStep_eq (s : State) (p : Pulse) :
    s.pulseStep p = { s with
      portLog := s.portLog ++ pulseCalls s.txPin.pin p
      txLevel := p.level
      seq := { s.seq with pos := s.seq.pos + 1 } } := by
  simp [State.pulseStep, State.emitPulse, State.callPort, pulseCalls]

/-- The start step, written out (R144). -/
theorem startBurst_eq (s : State) (ps : List Pulse) :
    s.startBurst ps = { s with
      seq := { busy := true, susp := s.rxCtl.live, pos := 0, pulses := ps }
      rxCtl := { s.rxCtl with live := false }
      portLog := s.portLog ++ (if s.rxCtl.live then [.unregisterEdgeCallback s.rxCtl.pin] else []) } := by
  rcases s with ⟨_, _, _, _, _, ⟨en, live, pin⟩, _, _, _, _, _, _, _, _, _, _⟩
  cases live <;> simp [State.startBurst, State.callPort]

/-- The end step, written out (R146). -/
theorem endBurst_eq (s : State) :
    s.endBurst = { s with
      portLog := s.portLog ++ (if s.seq.susp then [.registerEdgeCallback s.rxCtl.pin] else [])
      rxCtl := if s.seq.susp then { s.rxCtl with live := true } else s.rxCtl
      seq := { s.seq with busy := false, susp := false }
      responses := s.responses ++ [.none] } := by
  cases h : s.seq.susp <;> simp [State.endBurst, State.callPort, State.respond, h]

/-- What a turn of the sequencer can do: wait, a pulse step, the end step, or the named stop (R145, R146). -/
theorem sequencerTurn_cases (s : State) :
    (s.seq.busy = false ∧ s.sequencerTurn = .next s) ∨
    (∃ p, s.seq.busy = true ∧ s.seq.pulses[s.seq.pos]? = some p ∧ s.sequencerTurn = .next (s.pulseStep p)) ∨
    (s.seq.busy = true ∧ s.seq.pos = s.seq.pulses.length ∧ s.sequencerTurn = .next s.endBurst) ∨
    (s.seq.busy = true ∧ s.seq.pulses.length < s.seq.pos ∧ s.sequencerTurn = .fault .sequencerOverrun) := by
  by_cases hb : s.seq.busy = true
  · cases hp : s.seq.pulses[s.seq.pos]? with
    | some p => exact .inr (.inl ⟨p, hb, rfl, by simp [State.sequencerTurn, hb, hp]⟩)
    | none =>
      have hle := List.getElem?_eq_none_iff.mp hp
      by_cases he : s.seq.pos = s.seq.pulses.length
      · refine .inr (.inr (.inl ⟨hb, he, ?_⟩))
        simp only [State.sequencerTurn, hb, if_true, hp]
        rw [if_pos he]
      · refine .inr (.inr (.inr ⟨hb, by omega, ?_⟩))
        simp only [State.sequencerTurn, hb, if_true, hp]
        rw [if_neg he]
  · exact .inl ⟨by simpa using hb, by simp [State.sequencerTurn, hb]⟩

/-- What a transmit command does from its second check on: a silent no-op, or the start step of a non-empty burst
(R143, R144, R147). -/
theorem transmit_cases (s : State) (ops : List EncOp) :
    (∃ e, s.transmit ops = (s.record e).respond .none) ∨
    (s.txPin.valid = true ∧ burst ops s.params s.repeatCount.toNat ≠ [] ∧
      s.transmit ops = s.startBurst (burst ops s.params s.repeatCount.toNat)) := by
  cases hv : s.txPin.valid
  · exact .inl ⟨.noTransmitPin, by simp [State.transmit, hv]⟩
  · cases he : (burst ops s.params s.repeatCount.toNat).isEmpty
    · exact .inr ⟨rfl, by simpa using he, by simp [State.transmit, hv, he]⟩
    · exact .inl ⟨s.emptyBurstEvent, by simp [State.transmit, hv, he]⟩

/-! ### The decoder and the classifier -/

/-- What an accepted frame is (spec/43_protocol_decoder.md R204, R207). -/
theorem decodeFrame_some {rxTol : BitVec 8} {frame : List Micros} {r : Accepted} (h : decodeFrame rxTol frame = some r) :
    frame.length % 2 = 1 ∧ r.frame = frame ∧ r.bitLen = frame.length / 2 ∧
      r.delay = BitVec.ofNat 32 (framePeriod frame) := by
  unfold decodeFrame at h
  split at h
  · cases h
  · next hodd =>
    simp only [Option.map_eq_some_iff] at h
    obtain ⟨code, -, rfl⟩ := h
    exact ⟨by omega, rfl, rfl, rfl⟩

/-- What DECODE of a frame does: a trace entry only, or the commit of the accepted result (R200, R208). -/
theorem decodeClosed_cases (s : State) (frame : List Micros) :
    (∃ e, s.decodeClosed frame = s.record e) ∨
    (∃ r, decodeFrame s.rxTol frame = some r ∧ Config.minIntervalsCommit < frame.length ∧
      s.decodeClosed frame = { s with commitArgs := r, latch := s.latch.publish r }) := by
  cases h : decodeFrame s.rxTol frame with
  | none => exact .inl ⟨.malformedFrame, by simp [State.decodeClosed, h]⟩
  | some r =>
    have hf := (decodeFrame_some h).2.1
    by_cases hg : Config.minIntervalsCommit < frame.length
    · refine .inr ⟨r, rfl, hg, ?_⟩
      simp only [State.decodeClosed, h, State.passResult, hf, hg, if_true]
      rfl
    · exact .inl ⟨.belowCommitGate, by simp [State.decodeClosed, h, State.passResult, hf, hg]⟩

/-- The sync predicate as a proposition (spec/42_edge_classifier.md R172). -/
theorem isSync_iff (d prev : Micros) : isSync d prev = true ↔
    (Config.gapLong ≤ d.toNat ∧ Config.gapLong ≤ prev.toNat) ∨
      (Config.gapNormal < d.toNat ∧ Config.gapNormal < prev.toNat ∧ prev.toNat < Config.gapLong) := by
  unfold isSync
  exact decide_eq_true_iff

/-- The window test as a proposition (spec/43_protocol_decoder.md R202). -/
theorem near_iff (tol : Nat) (x : Micros) (c : Nat) : near tol x c = true ↔ c ≤ x.toNat + tol ∧ x.toNat ≤ c + tol := by
  unfold near
  rw [decide_eq_true_iff]
  omega

/-- An interval of at most `GAP_NORMAL` is ORDINARY whatever came before (spec/42_edge_classifier.md R173). -/
theorem branchOf_ordinary {d prev : Micros} (h : d.toNat ≤ Config.gapNormal) : branchOf d prev = .ordinary := by
  have hs : isSync d prev = false := by
    rw [← Bool.not_eq_true, isSync_iff]
    simp only [Config.gapLong, Config.gapNormal] at *
    omega
  unfold branchOf
  rw [hs, if_neg (by decide), if_neg (by omega)]

/-- What the classifier does with an interval, branch by branch; `e` is the trace entry (spec/42_edge_classifier.md R173
to R178). -/
theorem classify_cases (s : State) (d : Micros) :
    (isSync d s.cls.prev = true ∧ s.cls.rpt = 0 ∧ Config.minEdgesHandoff ≤ s.cls.cc ∧
      s.classify d =
        { ({ s with cls := s.cls.countSync }).decodeClosed s.cls.closedFrame with
          cls := s.cls.countSync.openFrame d }) ∨
    (isSync d s.cls.prev = true ∧ ¬(s.cls.rpt = 0 ∧ Config.minEdgesHandoff ≤ s.cls.cc) ∧
      s.classify d = { s.record .repeatNotConfirmed with cls := s.cls.countSync.openFrame d }) ∨
    (isSync d s.cls.prev = false ∧ Config.gapNormal < d.toNat ∧
      s.classify d = { s.record .spuriousNoise with cls := s.cls.hardReset.openFrame d }) ∨
    (isSync d s.cls.prev = false ∧ d.toNat ≤ Config.gapNormal ∧ s.cls.cc = s.cap ∧
      s.classify d = { s.record .bufferOverflow with cls := s.cls.hardReset }) ∨
    (isSync d s.cls.prev = false ∧ d.toNat ≤ Config.gapNormal ∧ s.cls.cc ≠ s.cap ∧
      s.classify d = { s with cls := s.cls.append d }) := by
  cases hs : isSync d s.cls.prev
  · by_cases hn : Config.gapNormal < d.toNat
    · refine .inr (.inr (.inl ⟨rfl, hn, ?_⟩))
      simp [State.classify, branchOf, hs, hn, State.noiseBranch, State.record]
    · by_cases hc : s.cls.cc = s.cap
      · refine .inr (.inr (.inr (.inl ⟨rfl, by omega, hc, ?_⟩)))
        simp [State.classify, branchOf, hs, hn, State.ordinaryBranch, hc, State.record]
      · refine .inr (.inr (.inr (.inr ⟨rfl, by omega, hc, ?_⟩)))
        simp [State.classify, branchOf, hs, hn, State.ordinaryBranch, hc]
  · by_cases hh : s.cls.rpt = 0 ∧ Config.minEdgesHandoff ≤ s.cls.cc
    · refine .inl ⟨rfl, hh.1, hh.2, ?_⟩
      have h1 : s.cls.countSync.handsOff = true := by
        exact decide_eq_true ⟨(satInc_eq_one _).mpr hh.1, hh.2⟩
      have h2 : (({ s with cls := s.cls.countSync } : State).decodeClosed s.cls.closedFrame).cls = s.cls.countSync := by
        rcases decodeClosed_cases { s with cls := s.cls.countSync } s.cls.closedFrame with ⟨e, he⟩ | ⟨r, -, -, hr⟩
        · rw [he]; rfl
        · rw [hr]
      have h3 : s.cls.countSync.closedFrame = s.cls.closedFrame := rfl
      simp only [State.classify, branchOf, hs, if_true, State.syncBranch, h1, h3, h2]
    · refine .inr (.inl ⟨rfl, hh, ?_⟩)
      have h1 : s.cls.countSync.handsOff = false := by
        simp only [Classifier.handsOff, Classifier.countSync_rpt, Classifier.countSync_cc, satInc_eq_one,
          decide_eq_false_iff_not]
        exact hh
      simp [State.classify, branchOf, hs, State.syncBranch, h1, State.record]

/-- An edge that is not delivered changes nothing, and a delivered one is classified from its stamped state (R170,
R171). -/
theorem deliverEdge_cases (s : State) (t : Micros) :
    (s.rxCtl.live = false ∧ s.deliverEdge t = s) ∨
    (s.rxCtl.live = true ∧
      s.deliverEdge t =
        ({ s.callPort (.nowMicroseconds t) with cls := s.cls.stamp t } : State).classify (t - s.cls.lastT)) := by
  cases h : s.rxCtl.live
  · exact .inl ⟨rfl, by simp [State.deliverEdge, h]⟩
  · exact .inr ⟨rfl, by simp [State.deliverEdge, h, State.takeEdge, Classifier.interval]⟩

/-! ### The step -/

/-- What a step can be: the sequencer's turn, an operation run, a reserved word, or the stop on a reserved
micro-operation (spec/20_memory.md R77, spec/41_transmission_controller.md R141). -/
theorem step_cases (s : State) :
    (step s = s.sequencerTurn ∧ (s.inputs = [] ∨ (s.seq.busy = true ∧ ∃ c rest, s.inputs = .code c :: rest ∧ c.format ≠ .edge))) ∨
    (∃ rest, s.inputs = .turn :: rest ∧ step s = (s.withInputs rest).sequencerTurn) ∨
    (∃ c rest i, s.inputs = .code c :: rest ∧ (s.seq.busy = false ∨ c.format = .edge) ∧ decodeCode c = .ok i ∧
      step s = exec i (s.withInputs rest)) ∨
    (∃ w rest e, s.inputs = .code (.host w) :: rest ∧ s.seq.busy = false ∧ decodeHost w = .error e ∧
      step s = .next (s.withInputs rest).reservedWord) ∨
    (∃ u rest, s.inputs = .code (.micro u) :: rest ∧ s.seq.busy = false ∧ decodeMicro u = .error (.microCode u) ∧
      step s = .fault (.reservedMicroOp u)) := by
  have hmicro : ∀ u e, decodeMicro u = .error e → e = .microCode u := by
    intro u e he
    unfold decodeMicro at he
    split at he <;> cases he
    rfl
  have hhost : ∀ w u, decodeHost w ≠ .error (.microCode u) := by
    intro w u he
    simp only [decodeHost, requireZero] at he
    split at he <;> (try split at he) <;> cases he
  rcases hi : s.inputs with _ | ⟨x, rest⟩
  · exact .inl ⟨by simp [step, State.fetch, hi], .inl rfl⟩
  · rcases x with c | _
    · rcases c with w | u | t
      · cases hb : s.seq.busy
        · right; right
          cases hd : decodeHost w with
          | ok i =>
            refine .inl ⟨_, _, i, rfl, .inl rfl, hd, ?_⟩
            simp [step, State.fetch, hi, hb, State.takeCode, decodeCode, hd]
          | error e =>
            refine .inr (.inl ⟨_, _, e, rfl, rfl, hd, ?_⟩)
            cases e with
            | microCode u => exact absurd hd (hhost w u)
            | hostOpcode o => simp [step, State.fetch, hi, hb, State.takeCode, decodeCode, hd]
            | hostReservedBits o => simp [step, State.fetch, hi, hb, State.takeCode, decodeCode, hd]
        · exact .inl ⟨by simp [step, State.fetch, hi, hb], .inr ⟨rfl, _, _, rfl, by simp [Code.format]⟩⟩
      · cases hb : s.seq.busy
        · right; right
          cases hd : decodeMicro u with
          | ok i =>
            refine .inl ⟨_, _, i, rfl, .inl rfl, hd, ?_⟩
            simp [step, State.fetch, hi, hb, State.takeCode, decodeCode, hd]
          | error e =>
            obtain rfl := hmicro u e hd
            refine .inr (.inr ⟨u, _, rfl, rfl, hd, ?_⟩)
            simp [step, State.fetch, hi, hb, State.takeCode, decodeCode, hd]
        · exact .inl ⟨by simp [step, State.fetch, hi, hb], .inr ⟨rfl, _, _, rfl, by simp [Code.format]⟩⟩
      · right; right
        refine .inl ⟨_, _, .edge t, rfl, .inr rfl, rfl, ?_⟩
        simp [step, State.fetch, hi, State.takeCode, decodeCode]
    · exact .inr (.inl ⟨rest, rfl, by simp [step, State.fetch, hi]⟩)

end Sys2Proof.Machine
end

