-- ==== Sys2Proof/Laws/PerInstr.lean ====
section
/-! SUPPORT. Statements made of every operation as syntax, one lemma per constructor of Instr. -/

namespace Sys2Proof.Laws

open Sys2Proof

/-- The code of an operation has the format in which spec/opcode_table.json lists it (spec/30_encoding.md R90). -/
def EncodedFormat.Statement (i : Instr) : Prop := (encode i).format = i.format

theorem EncodedFormat.setTxPin (pin : Pin) : EncodedFormat.Statement (.setTxPin pin) := rfl
theorem EncodedFormat.setProtocol (id : BitVec 16) : EncodedFormat.Statement (.setProtocol id) := rfl
theorem EncodedFormat.setProtocolPl (id : BitVec 16) (pulseUs : BitVec 32) : EncodedFormat.Statement (.setProtocolPl id pulseUs) := rfl
theorem EncodedFormat.setRepeat (count : BitVec 32) : EncodedFormat.Statement (.setRepeat count) := rfl
theorem EncodedFormat.setRxTolerance (percent : BitVec 8) : EncodedFormat.Statement (.setRxTolerance percent) := rfl
theorem EncodedFormat.txCode (value : BitVec 32) (len : Nat) : EncodedFormat.Statement (.txCode value len) := rfl
theorem EncodedFormat.txTristate (packed : BitVec 32) (count : Nat) : EncodedFormat.Statement (.txTristate packed count) := rfl
theorem EncodedFormat.rxEnable (pin : Pin) : EncodedFormat.Statement (.rxEnable pin) := rfl
theorem EncodedFormat.rxDisable : EncodedFormat.Statement (.rxDisable) := rfl
theorem EncodedFormat.rxAvailable : EncodedFormat.Statement (.rxAvailable) := rfl
theorem EncodedFormat.rxTake : EncodedFormat.Statement (.rxTake) := rfl
theorem EncodedFormat.rxClear : EncodedFormat.Statement (.rxClear) := rfl
theorem EncodedFormat.emitBit0 : EncodedFormat.Statement (.emitBit0) := rfl
theorem EncodedFormat.emitBit1 : EncodedFormat.Statement (.emitBit1) := rfl
theorem EncodedFormat.emitSync : EncodedFormat.Statement (.emitSync) := rfl
theorem EncodedFormat.emitSymZero : EncodedFormat.Statement (.emitSymZero) := rfl
theorem EncodedFormat.emitSymFloat : EncodedFormat.Statement (.emitSymFloat) := rfl
theorem EncodedFormat.emitSym10 : EncodedFormat.Statement (.emitSym10) := rfl
theorem EncodedFormat.emitSymOne : EncodedFormat.Statement (.emitSymOne) := rfl
theorem EncodedFormat.decode : EncodedFormat.Statement (.decode) := rfl
theorem EncodedFormat.commit : EncodedFormat.Statement (.commit) := rfl
theorem EncodedFormat.edge (t : Micros) : EncodedFormat.Statement (.edge t) := rfl

end Sys2Proof.Laws
end

