-- ==== Sys2Proof/Tests/Slice0.lean ====
section
/-! SUPPORT. The model's own tests: the smoke test of WellFormed, one word of every operation written out from
spec/30_encoding.md, vectors of spec/95_test_vectors.md of one step each, and for each statement with hypotheses a
concrete case that meets them. -/

namespace Sys2Proof.Tests

open Sys2Proof Sys2Proof.Machine

/-! ### WellFormed: one ill-formed term for each check (spec/30_encoding.md R97, R108) -/

theorem test_length_of_64_is_refused : Instr.wellFormed (.txCode 0 64) = false := by decide
theorem test_count_of_32_is_refused : Instr.wellFormed (.txTristate 0 32) = false := by decide
theorem test_string_of_0_is_refused : Pseudo.wellFormed (.txTristateString []) = false := by decide
theorem test_string_of_17_is_refused :
    Pseudo.wellFormed (.txTristateString (List.replicate 17 Symbol.float)) = false := by decide
theorem test_transmit_of_64_is_refused : Pseudo.wellFormed (.transmit 0 64 1) = false := by decide

/-! ### Decoding: `OPC`, `RSV`, `B` and `A` written out from spec/30_encoding.md R91 and R93; U codes from R101; words of
spec/95_test_vectors.md 2.1 -/

theorem test_decode_setTxPin :
    decodeHost 0b00000001_00000000_0000000000000000_00000000000000000000000000000100 =
      .ok (.setTxPin 4) := rfl
theorem test_decode_setProtocol :
    decodeHost 0b00000010_00000000_0000000000000010_00000000000000000000000000000000 =
      .ok (.setProtocol 2) := rfl
theorem test_decode_setProtocolPl :
    decodeHost 0b00000011_00000000_0000000000000111_00000000000000000000000111110100 =
      .ok (.setProtocolPl 7 500) := rfl
theorem test_decode_setRepeat :
    decodeHost 0b00000100_00000000_0000000000000000_00000000000000000000000000000011 =
      .ok (.setRepeat 3) := rfl
theorem test_decode_setRxTolerance :
    decodeHost 0b00000101_00000000_0000000000000000_00000000000000000000000001100100 =
      .ok (.setRxTolerance 100) := rfl
theorem test_decode_txCode :
    decodeHost 0b00010000_00000000_0000000000011000_00000000010110100011110010010001 =
      .ok (.txCode 0x5A3C91 24) := rfl
theorem test_decode_txTristate :
    decodeHost 0b00010001_00000000_0000000000001100_00000000000101000100010001010111 =
      .ok (.txTristate 0x00144457 12) := rfl
theorem test_decode_rxEnable :
    decodeHost 0b00100000_00000000_0000000000000000_00000000000000000000000000000010 =
      .ok (.rxEnable 2) := rfl
theorem test_decode_rxDisable :
    decodeHost 0b00100001_00000000_0000000000000000_00000000000000000000000000000000 =
      .ok (.rxDisable) := rfl
theorem test_decode_rxAvailable :
    decodeHost 0b00100010_00000000_0000000000000000_00000000000000000000000000000000 =
      .ok (.rxAvailable) := rfl
theorem test_decode_rxTake :
    decodeHost 0b00100011_00000000_0000000000000000_00000000000000000000000000000000 =
      .ok (.rxTake) := rfl
theorem test_decode_rxClear :
    decodeHost 0b00100100_00000000_0000000000000000_00000000000000000000000000000000 =
      .ok (.rxClear) := rfl
theorem test_decode_emitBit0 : decodeMicro 0b0000 = .ok .emitBit0 := rfl
theorem test_decode_emitBit1 : decodeMicro 0b0001 = .ok .emitBit1 := rfl
theorem test_decode_emitSync : decodeMicro 0b0010 = .ok .emitSync := rfl
theorem test_decode_emitSymZero : decodeMicro 0b0100 = .ok .emitSymZero := rfl
theorem test_decode_emitSymFloat : decodeMicro 0b0101 = .ok .emitSymFloat := rfl
theorem test_decode_emitSym10 : decodeMicro 0b0110 = .ok .emitSym10 := rfl
theorem test_decode_emitSymOne : decodeMicro 0b0111 = .ok .emitSymOne := rfl
theorem test_decode_decode : decodeMicro 0b1000 = .ok .decode := rfl
theorem test_decode_commit : decodeMicro 0b1001 = .ok .commit := rfl
theorem test_decode_edge : decodeCode (.edge 1000000) = .ok (.edge 1000000) := rfl
/-- RX_DISABLE with `RSV = 1` is reserved (95_test_vectors.md 2.1). -/
theorem test_reserved_rsv_bit : decodeHost 0x2101000000000000 = .error (.hostReservedBits 0x21) := rfl
/-- TX_CODE with `B[6] = 1` is reserved (95_test_vectors.md 2.1). -/
theorem test_reserved_length_bit : decodeHost 0x1000004000000001 = .error (.hostReservedBits 0x10) := rfl
/-- SET_RX_TOLERANCE with `A[8] = 1` is reserved (95_test_vectors.md 2.1). -/
theorem test_reserved_tolerance_bit : decodeHost 0x0500000000000100 = .error (.hostReservedBits 0x05) := rfl
theorem test_table_word_host : decodeTableWord 64 0x10000018005A3C91 = some (.txCode 0x5A3C91 24) := rfl
theorem test_table_word_micro : decodeTableWord 8 9 = some .commit := rfl
theorem test_table_word_edge : decodeTableWord 32 6000 = some (.edge 6000) := rfl

/-- The packed word of the string of R111. -/
theorem test_tri_state_string_packs :
    packSymbols [.zero, .float, .float, .zero, .float, .zero, .float, .zero, .float, .float, .float, .one] =
      0x00144457 := by decide

/-! ### Helpers: small states -/

/-- The state that an outcome goes on to. -/
def after (o : Host.Outcome State Fault Refusal) : State :=
  match o with
  | .next t => t
  | .fault _ => State.reset
  | .refused _ => State.reset

/-- Reset with a transmit pin, and inputs to take. -/
def ready (inputs : List Input) : State := { State.reset with txPin := { valid := true, pin := 4 }, inputs := inputs }

/-- Reset with reception registered and a classifier of that `TIMINGS[0]`, `CC`, `RPT` and `LAST_T`; `TIMINGS[1 ..]`
alternates 350 and 1050. -/
def receiving (first : Micros) (cc : Nat) (rpt : BitVec 8) (lastT : Micros) : State :=
  { State.reset with
    rxCtl := { en := true, live := true, pin := 2 }
    cls := { timings := first :: (List.replicate 33 [350, 1050]).flatten, cc := cc, lastT := lastT, rpt := rpt } }

/-- A burst of one bit and a sync at position `pos`, with reception suspended or not; inputs to take. -/
def bursting (pos : Nat) (susp : Bool) (inputs : List Input) : State :=
  { ready inputs with
    rxCtl := { en := susp, live := false, pin := 2 }
    seq := { busy := true, susp := susp, pos := pos, pulses := burst (codeFrameOps 1 1) (some ⟨1, 350, Config.preset1⟩) 1 }
    txLevel := if pos % 2 = 0 then .low else .high }

/-- The `RAW24` frame of spec/95_test_vectors.md. -/
def raw24 : List Micros :=
  [10850, 350, 1050, 1050, 350, 350, 1050, 1050, 350, 1050, 350, 350, 1050, 1050, 350, 350, 1050, 350, 1050, 350, 1050,
    1050, 350, 1050, 350] ++
  [1050, 350, 1050, 350, 350, 1050, 350, 1050, 1050, 350, 350, 1050, 350, 1050, 1050, 350, 350, 1050, 350, 1050, 350,
    1050, 1050, 350]

/-- `receiving`, with `RAW24` in `TIMINGS` and the change count of its closing edge. -/
def received24 : State :=
  { receiving 10850 50 0 0 with
    cls := { timings := raw24 ++ List.replicate 18 0, cc := 50, lastT := 0, rpt := 0 } }

/-- A latch that a commit has filled. -/
def filled : Latch := { State.reset.latch with avail := true, value := 5, bitLen := 24, delay := 350, proto := 1 }

/-- The outcome of a step, as a state. -/
def stepped (s : State) : State := after (step s)

/-! ### One step of each operation: vectors of spec/95_test_vectors.md sections 1 and 2 -/

theorem test_set_tx_pin : (after (exec (.setTxPin 4) .reset)).portLog = [.configureOutput 4] := by decide
theorem test_set_protocol_loads_650 : (after (exec (.setProtocol 2) .reset)).plen = 650 := by decide
theorem test_set_protocol_7_keeps_500 :
    (after (exec (.setProtocol 7) { State.reset with plen := 500 })).plen = 500 := by decide
theorem test_set_protocol_pl_zero : (after (exec (.setProtocolPl 1 0) { State.reset with proto := 9 })).plen = 0 := by
  decide
theorem test_set_repeat : (after (exec (.setRepeat 0) .reset)).repeatCount = 0 := by decide
theorem test_set_rx_tolerance : (after (exec (.setRxTolerance 255) .reset)).rxTol = 255 := by decide
/-- V-L1-6: TX_CODE 0b1010, 4 with REPEAT = 1. -/
theorem test_tx_code_pulses :
    (after (exec (.txCode 0b1010 4) { ready [] with repeatCount := 1 })).seq.pulses =
      [⟨.high, 1050⟩, ⟨.low, 350⟩, ⟨.high, 350⟩, ⟨.low, 1050⟩, ⟨.high, 1050⟩, ⟨.low, 350⟩, ⟨.high, 350⟩, ⟨.low, 1050⟩,
        ⟨.high, 350⟩, ⟨.low, 10850⟩] := by decide
theorem test_tx_code_33_is_no_op :
    exec (.txCode 1 33) (ready []) =
      .next { ready [] with responses := [.none], events := [.operandOutOfRange] } := rfl
/-- 2.3: TX_TRISTATE 0x9, 2 is the symbols 0b10 and 0b01. -/
theorem test_tx_tristate_pulses :
    (after (exec (.txTristate 0x9 2) { ready [] with repeatCount := 1 })).seq.pulses =
      [⟨.high, 1050⟩, ⟨.low, 350⟩, ⟨.high, 350⟩, ⟨.low, 1050⟩, ⟨.high, 350⟩, ⟨.low, 1050⟩, ⟨.high, 1050⟩, ⟨.low, 350⟩,
        ⟨.high, 350⟩, ⟨.low, 10850⟩] := by decide
theorem test_tx_tristate_17_is_no_op : (after (exec (.txTristate 0 17) (ready []))).seq = State.reset.seq := by decide
/-- 2.7: RX_ENABLE 3 after RX_ENABLE 2. -/
theorem test_rx_enable_moves_the_pin :
    (after (exec (.rxEnable 3) (receiving 0 0 0 0))).portLog =
      [.unregisterEdgeCallback 2, .configureInput 3, .registerEdgeCallback 3] := by decide
theorem test_rx_disable_keeps_the_pin :
    (after (exec .rxDisable (receiving 0 0 0 0))).rxCtl = { en := false, live := false, pin := 2 } := by decide
theorem test_rx_available_at_reset : (after (exec .rxAvailable .reset)).responses = [.avail false] := by decide
theorem test_rx_take_at_reset : (after (exec .rxTake .reset)).responses = [.result 0 0 0 0 0 []] := by decide
theorem test_rx_clear_keeps_the_fields :
    (after (exec .rxClear { State.reset with latch := filled })).latch = { filled with avail := false } := by decide

/-- 2.2: each encoder micro-operation at protocol 1, PLEN = 350. -/
theorem test_emit_bit0 : (after (exec .emitBit0 (ready []))).portLog =
    [.writeLevel 4 .high, .delayMicroseconds 350, .writeLevel 4 .low, .delayMicroseconds 1050] := by decide
theorem test_emit_bit1 : (after (exec .emitBit1 (ready []))).portLog =
    [.writeLevel 4 .high, .delayMicroseconds 1050, .writeLevel 4 .low, .delayMicroseconds 350] := by decide
theorem test_emit_sync : (after (exec .emitSync (ready []))).portLog =
    [.writeLevel 4 .high, .delayMicroseconds 350, .writeLevel 4 .low, .delayMicroseconds 10850] := by decide
theorem test_emit_sym_zero : modelledTime (after (exec .emitSymZero (ready []))).portLog = 2800 := by decide
theorem test_emit_sym_float : (after (exec .emitSymFloat (ready []))).portLog =
    [.writeLevel 4 .high, .delayMicroseconds 350, .writeLevel 4 .low, .delayMicroseconds 1050,
      .writeLevel 4 .high, .delayMicroseconds 1050, .writeLevel 4 .low, .delayMicroseconds 350] := by decide
theorem test_emit_sym_10 : (after (exec .emitSym10 (ready []))).portLog =
    [.writeLevel 4 .high, .delayMicroseconds 1050, .writeLevel 4 .low, .delayMicroseconds 350,
      .writeLevel 4 .high, .delayMicroseconds 350, .writeLevel 4 .low, .delayMicroseconds 1050] := by decide
theorem test_emit_sym_one : (after (exec .emitSymOne (ready []))).portLog =
    [.writeLevel 4 .high, .delayMicroseconds 1050, .writeLevel 4 .low, .delayMicroseconds 350,
      .writeLevel 4 .high, .delayMicroseconds 1050, .writeLevel 4 .low, .delayMicroseconds 350] := by decide
/-- 2.2: any micro-operation with PROTO = 7. -/
theorem test_emit_unsupported : exec .emitSync { ready [] with proto := 7 } = .next { ready [] with proto := 7 } := rfl

/-- V-L1-1: DECODE of `RAW24` commits 0x5A3C91. -/
theorem test_decode_commits : (after (exec .decode received24)).latch =
    { avail := true, value := 0x5A3C91, bitLen := 24, delay := 350, proto := 1, rawLen := 49
      raw := raw24 ++ List.replicate 18 0 } := rfl
/-- V-L1-2: below the gate nothing is committed. -/
theorem test_decode_below_the_gate : (after (exec .decode (receiving 10850 22 0 0))).latch = State.reset.latch := rfl
/-- 2.6: the second COMMIT overwrites the first. -/
theorem test_commit_overwrites :
    (after (exec .commit { State.reset with
      latch := filled, commitArgs := { value := 9, bitLen := 25, delay := 351, frame := raw24 } })).latch.value = 9 := by
  decide
/-- 2.4, wrap: LAST_T = 0xFFFFF000 and an edge at 0x100 measure 4352. -/
theorem test_edge_wraps :
    (after (exec (.edge 0x00000100) (receiving 10850 3 0 0xFFFFF000))).cls.timings[3]? = some 4352 := by decide
/-- 2.4: overflow discards the interval. -/
theorem test_edge_overflows :
    (after (exec (.edge 350) (receiving 10850 67 0 0))).cls = { (receiving 10850 0 0 350).cls with rpt := 0 } := by decide

/-- V-L1-3: the window's lower end, and one below it. -/
theorem test_tolerance_boundary :
    (decodeFrame 60 [10850, 140, 1050, 1050, 350]).map Accepted.value = some 1 ∧
      decodeFrame 60 [10850, 139, 1050, 1050, 350] = none := ⟨rfl, rfl⟩
/-- 2.5: at 200 percent the bit-0 test passes first. -/
theorem test_bit_0_is_tested_first :
    (decodeFrame 199 [10850, 1050, 350]).map Accepted.value = some 1 ∧
      (decodeFrame 200 [10850, 1050, 350]).map Accepted.value = some 0 := ⟨rfl, rfl⟩
/-- 2.4: two classifier rows at the sync boundary. -/
theorem test_sync_boundary : isSync 5001 99999 = true ∧ isSync 99999 100000 = false ∧ isSync 100000 100000 = true := by
  decide

/-- A placed word is the next operation to run, and an edge is delivered. -/
theorem test_placed_word_runs :
    stepped (State.reset.withFetchWord 64 0x0100000000000004) = after (exec (.setTxPin 4) .reset) := rfl
theorem test_placed_edge_is_delivered : (stepped (State.reset.withFetchWord 32 4000)).cls.cc = 1 := rfl
/-- R108: assembler text, with a comment. -/
theorem test_assembler_reads_text :
    assembleLine "TX_CODE 0x5A3C91, 24 ; send" = some [.txCode 0x5A3C91 24] := by decide

/-! ### Witnesses: a concrete case of the hypotheses of each statement that has some -/

theorem witness_DecodeOfEncodeIsIdentity :
    Instr.wellFormed (.txCode 1 63) = true ∧ Instr.wellFormed (.txTristate 1 31) = true := by decide

theorem witness_EncodeOfDecodeIsIdentity :
    decodeCode (.host 0x1000003F00000001) = .ok (.txCode 1 63) ∧ decodeCode (.micro 0) = .ok .emitBit0 ∧
      decodeCode (.edge 0) = .ok (.edge 0) := ⟨rfl, rfl, rfl⟩

theorem witness_HostDecoderIsMaskTable :
    decodeHost 0x2000000000000000 = .ok (.rxEnable 0) ∧ decodeHost 0xFF00000000000000 = .error (.hostOpcode 0xFF) ∧
      (∃ r ∈ hostTable, r.selectedBy 0x2000000000000000 = true) := ⟨rfl, rfl, by decide⟩

theorem witness_PackedStringHoldsSymbolsInOrder :
    (List.replicate 15 Symbol.one ++ [Symbol.float]).length ≤ 16 ∧
      (List.replicate 15 Symbol.one ++ [Symbol.float])[0]? = some .one ∧
      (List.replicate 15 Symbol.one ++ [Symbol.float])[15]? = some .float := by decide

theorem witness_PseudoOperationsExpandAsSpec :
    (1 ≤ [Symbol.one].length ∧ [Symbol.one].length ≤ 16) ∧
      (1 ≤ (List.replicate 16 Symbol.one).length ∧ (List.replicate 16 Symbol.one).length ≤ 16) ∧
      ([] : List Symbol).length = 0 ∧ 16 < (List.replicate 17 Symbol.one).length ∧ 63 < 64 := by decide

theorem witness_StepRunsDecodedCode :
    (ready [.code (.host 0x2200000000000000)]).inputs = .code (.host 0x2200000000000000) :: [] ∧
      (ready [.code (.host 0x2200000000000000)]).seq.busy = false ∧
      decodeCode (.host 0x2200000000000000) = .ok .rxAvailable ∧
      (bursting 0 false [.code (.edge 7)]).inputs = .code (.edge 7) :: [] ∧ (Code.edge 7).format = .edge ∧
      decodeCode (.edge 7) = .ok (.edge 7) := ⟨rfl, rfl, rfl, rfl, rfl, rfl⟩

theorem witness_ReservedCommandWordIsNoOp :
    (ready [.code (.host 0)]).inputs = .code (.host 0) :: [] ∧ (ready [.code (.host 0)]).seq.busy = false ∧
      decodeHost 0 = .error (.hostOpcode 0) := ⟨rfl, rfl, rfl⟩

theorem witness_IdleBlockWaits :
    State.reset.seq.busy = false ∧ State.reset.inputs = [] ∧ (ready [.turn]).seq.busy = false ∧
      (ready [.turn]).inputs = .turn :: [] := by decide

theorem witness_LineInv_start : (bursting 0 true [.code (.host 0)]).LineInv :=
  ⟨by decide, by decide⟩

theorem witness_LineInv_end : (bursting 4 true [.code (.host 0)]).LineInv :=
  ⟨by decide, by decide⟩

theorem witness_CommandWaitsForBurst :
    (bursting 0 true [.code (.host 0)]).inputs = .code (.host 0) :: [] ∧
      (bursting 0 true [.code (.host 0)]).seq.busy = true ∧ (bursting 0 true [.code (.host 0)]).LineInv ∧
      (bursting 0 true [.code (.host 0)]).seq.pos < (bursting 0 true [.code (.host 0)]).seq.pulses.length ∧
      (bursting 4 true [.code (.host 0)]).LineInv ∧
      (bursting 4 true [.code (.host 0)]).seq.pos = (bursting 4 true [.code (.host 0)]).seq.pulses.length :=
  ⟨rfl, rfl, witness_LineInv_start, by decide, witness_LineInv_end, by decide⟩

theorem witness_PulseStepDrivesLine :
    (bursting 3 false []).seq.busy = true ∧ (bursting 3 false []).seq.pulses[3]? = some ⟨.low, 10850⟩ := by decide

theorem witness_EndStepRestoresReception :
    (bursting 4 true []).seq.busy = true ∧ (bursting 4 true []).seq.pos = (bursting 4 true []).seq.pulses.length ∧
      (bursting 4 true []).seq.susp = true ∧ (bursting 4 false []).seq.susp = false := by decide

theorem witness_EdgesAreLostWhileNotLive :
    (ready (edgeInputs [1, 2] ++ [.turn])).rxCtl.live = false ∧
      (ready (edgeInputs [1, 2] ++ [.turn])).inputs = edgeInputs [1, 2] ++ [.turn] := ⟨rfl, rfl⟩

/-- A state whose commit operands fill the snapshot array. -/
def committing : State :=
  { State.reset with commitArgs := { value := 1, bitLen := 255, delay := 2, frame := List.replicate 67 3 } }

theorem witness_CommitPublishesPassedResult :
    committing.commitArgs.frame.length < 256 ∧ committing.commitArgs.bitLen < 256 ∧
      committing.commitArgs.frame.length ≤ committing.latch.raw.length := by decide

theorem witness_EncoderMicroOpsEmitTheirPulses :
    (EncOp.bit0, Instr.emitBit0) ∈ [(EncOp.bit0, Instr.emitBit0), (.bit1, .emitBit1), (.sync, .emitSync),
      (.symZero, .emitSymZero), (.symFloat, .emitSymFloat), (.sym10, .emitSym10), (.symOne, .emitSymOne)] := by decide

theorem witness_TxCodeStartsBurst :
    (ready []).txPin.valid = true ∧ (ready []).proto = 1 ∧ (ready []).repeatCount ≠ 0 ∧ 1 ≤ 1 ∧ 32 ≤ 32 := by decide

theorem witness_TxTristateStartsBurst :
    (ready []).txPin.valid = true ∧ { ready [] with proto := 2 }.proto = 2 ∧ (ready []).repeatCount ≠ 0 ∧ 16 ≤ 16 := by
  decide

theorem witness_TransmitThatCannotIsSilent :
    32 < 33 ∧ State.reset.txPin.valid = false ∧
      ({ ready [] with proto := 3 }.proto ≠ 1 ∧ { ready [] with proto := 3 }.proto ≠ 2) ∧
      { ready [] with repeatCount := 0 }.repeatCount = 0 := by decide

/-- Ready to transmit, the command of a burst first, then an edge and a turn during it and a host word after it. -/
def toBurst : State :=
  ready (.code (encode (.txCode 1 32)) :: ([.code (.edge 7), .turn] ++ [.code (.host 0)]))

theorem witness_BurstRunsToItsEnd :
    toBurst.inputs = .code (encode (.txCode 1 32)) :: ([.code (.edge 7), .turn] ++ [.code (.host 0)]) ∧
      toBurst.seq.busy = false ∧ toBurst.txPin.valid = true ∧ toBurst.proto = 1 ∧ toBurst.repeatCount ≠ 0 ∧
      [Input.code (.edge 7), .turn].all (fun x => x.isEdge || x.isTurn) = true ∧
      (∀ x, [Input.code (.host 0)].head? = some x → ∃ w, x = .code (.host w)) ∧
      [Input.code (.edge 7), .turn].countP Input.isTurn ≤
        (burst (codeFrameOps 1 32) toBurst.params toBurst.repeatCount.toNat).length :=
  ⟨rfl, rfl, rfl, rfl, by decide, rfl, fun x h => ⟨0, (Option.some.inj h).symm⟩,
    List.length_pos_iff.mpr (List.cons_ne_nil _ _)⟩

theorem witness_OrdinaryIntervalIsAppended :
    (receiving 0 66 0 0).rxCtl.live = true ∧ ((5000 : Micros) - (receiving 0 66 0 0).cls.lastT).toNat ≤ 5000 ∧
      (receiving 0 66 0 0).cls.cc ≠ (receiving 0 66 0 0).cap := by decide

theorem witness_FullBufferHardResets :
    (receiving 10850 67 0 0).rxCtl.live = true ∧ ((0 : Micros) - (receiving 10850 67 0 0).cls.lastT).toNat ≤ 5000 ∧
      (receiving 10850 67 0 0).cls.cc = (receiving 10850 67 0 0).cap := by decide

theorem witness_NoiseIntervalOpensFrame :
    (receiving 5000 5 0 0).rxCtl.live = true ∧ 5000 < ((5001 : Micros) - (receiving 5000 5 0 0).cls.lastT).toNat ∧
      isSync ((5001 : Micros) - (receiving 5000 5 0 0).cls.lastT) ((receiving 5000 5 0 0).cls.timings.headD 0) = false := by
  decide

theorem witness_UnconfirmedSyncRestartsFrame :
    (receiving 10850 30 255 0).rxCtl.live = true ∧ isSync (10850 - 0) ((receiving 10850 30 255 0).cls.timings.headD 0) = true ∧
      (receiving 10850 30 255 0).cls.rpt ≠ 0 ∧ (receiving 10850 20 0 0).cls.cc < 21 := by decide

theorem witness_ConfirmedSyncHandsFrameOff :
    (receiving 10850 21 0 0).rxCtl.live = true ∧ isSync (10850 - 0) ((receiving 10850 21 0 0).cls.timings.headD 0) = true ∧
      (receiving 10850 21 0 0).cls.rpt = 0 ∧ 21 ≤ (receiving 10850 21 0 0).cls.cc := by decide

/-- The three verdicts of a handed-off frame: rejected, below the gate, committed. -/
theorem witness_verdicts :
    decodeFrame 60 ((receiving 10850 21 0 0).cls.timings.take 20) = none ∧
      (decodeFrame 60 ((receiving 10850 48 0 0).cls.timings.take 47)).map (fun r => r.frame.length) = some 47 ∧
      (decodeFrame 60 ((receiving 10850 50 0 0).cls.timings.take 49)).map (fun r => r.frame.length) = some 49 :=
  ⟨rfl, rfl, rfl⟩

theorem witness_LaterSyncsOfRunCommitNothing : (receiving 10850 50 1 0).cls.rpt ≠ 0 := by decide

theorem witness_IndexInv : (receiving 10850 1 0 7).IndexInv :=
  ⟨by decide, by decide, by decide, by decide, by decide, by decide⟩

theorem witness_TwoGapsHealClassifier :
    (receiving 10850 1 0 7).rxCtl.live = true ∧ (receiving 10850 1 0 7).IndexInv := ⟨rfl, witness_IndexInv⟩

/-- A receiver of capacity 2 that an overlong frame reaches. -/
def narrow : State :=
  { State.reset with
    cap := 2
    rxCtl := { en := true, live := true, pin := 2 }
    cls := { timings := [10850, 0], cc := 1, lastT := 7, rpt := 0 }
    latch := { State.reset.latch with raw := [0, 0] }
    inputs := edgeInputs ((List.range 2).map fun k => 7 + BitVec.ofNat 32 (([5000, 0] : List Nat).take (k + 1)).sum) }

theorem witness_OverlongFrameIsNeverDecoded :
    narrow.rxCtl.live = true ∧ narrow.IndexInv ∧ narrow.cls.cc = 1 ∧ ([5000, 0] : List Nat).length = narrow.cap ∧
      (∀ d ∈ ([5000, 0] : List Nat), d ≤ 5000) ∧ narrow.cls.lastT = 7 ∧
      narrow.inputs = edgeInputs ((List.range narrow.cap).map fun k =>
        7 + BitVec.ofNat 32 (([5000, 0] : List Nat).take (k + 1)).sum) :=
  ⟨rfl, ⟨by decide, by decide, by decide, by decide, by decide, by decide⟩, rfl, rfl, by decide, rfl, rfl⟩

theorem witness_FrameDecodesToItsBits :
    (10850 : Micros).toNat / 31 = 350 ∧ 350 * (60 : BitVec 8).toNat / 100 = 210 ∧
      ([((350 : Micros), (1050 : Micros)), (1050, 350)].map fun q => classifyPair 350 210 q.1 q.2) =
        [false, true].map some ∧
      none ∈ [((350 : Micros), (350 : Micros))].map (fun q => classifyPair 350 210 q.1 q.2) := by decide

theorem witness_DecodeRunsToItsVerdict :
    ((receiving 10850 21 0 0).cls.timings.take ((receiving 10850 21 0 0).cls.cc - 1)).length % 2 = 0 ∧
      decodeFrame (receiving 0 1 0 0).rxTol ((receiving 10850 21 0 0).cls.timings.take 20) = none ∧
      (decodeFrame 60 ((receiving 10850 48 0 0).cls.timings.take ((receiving 10850 48 0 0).cls.cc - 1))).isSome = true ∧
      ((receiving 10850 48 0 0).cls.timings.take ((receiving 10850 48 0 0).cls.cc - 1)).length = 47 ∧
      (decodeFrame 60 ((receiving 10850 50 0 0).cls.timings.take ((receiving 10850 50 0 0).cls.cc - 1))).isSome = true ∧
      ((receiving 10850 50 0 0).cls.timings.take ((receiving 10850 50 0 0).cls.cc - 1)).length = 49 :=
  ⟨rfl, rfl, rfl, rfl, rfl, rfl⟩

theorem witness_TransmittedFrameDecodesToItsCode :
    (0xFFFFFFFF : BitVec 32).toNat < 2 ^ 32 ∧ 31 * (138547332 : BitVec 32).toNat < 2 ^ 32 ∧
      (199 : BitVec 8).toNat ≤ 199 ∧ (1 : BitVec 32).toNat < 2 ^ 1 ∧ 1 ≤ (1 : BitVec 32).toNat := by decide

/-- A receiver that a whole burst of `len` bits at pulse length `plen` reaches, 100000 µs after the last edge. -/
def receiver (value : BitVec 32) (len : Nat) (plen : BitVec 32) : State :=
  { receiving 10850 30 0 0 with
    rxTol := 199
    inputs := edgeInputs (edgeTimes 100000 (burst (codeFrameOps value len) (some ⟨1, plen, Config.preset1⟩) 3)) }

theorem witness_receiver_IndexInv (value : BitVec 32) (len : Nat) (plen : BitVec 32) :
    (receiver value len plen).IndexInv :=
  ⟨by show 1 ≤ 67; decide, rfl, by show 30 ≤ 67; decide, rfl, by show (0 : BitVec 8).toNat ≤ 67; decide,
    by show 0 ≤ 67; decide⟩

theorem witness_TransmittedCodeIsReceived :
    (receiver 0xFFFFFF 24 162).rxCtl.live = true ∧ (receiver 0xFFFFFF 24 162).IndexInv ∧
      (receiver 0xFFFFFF 24 162).cap = 67 ∧ (receiver 0xFFFFFF 24 162).rxTol.toNat ≤ 199 ∧
      100000 ≤ ((100000 : Micros) - (receiver 0xFFFFFF 24 162).cls.lastT).toNat ∧
      (0xFFFFFF : BitVec 32).toNat < 2 ^ 24 ∧ 162 ≤ (162 : BitVec 32).toNat ∧ (1666 : BitVec 32).toNat ≤ 1666 ∧
      (receiver 0xFFFFFF 24 162).inputs =
        edgeInputs (edgeTimes 100000 (burst (codeFrameOps 0xFFFFFF 24) (some ⟨1, 162, Config.preset1⟩) 3)) :=
  ⟨rfl, witness_receiver_IndexInv _ _ _, rfl, by decide, by decide, by decide, by decide, by decide, rfl⟩

theorem witness_StepKeepsIndexInv :
    (receiving 10850 1 0 7).IndexInv ∧ step (receiving 10850 1 0 7) = .next (receiving 10850 1 0 7) :=
  ⟨witness_IndexInv, rfl⟩

theorem witness_StepKeepsFrameInv : State.reset.FrameInv ∧ step State.reset = .next State.reset :=
  ⟨fun i _ h => absurd h (Nat.not_lt_zero i), rfl⟩

theorem witness_ReceptionInv : (bursting 0 true []).ReceptionInv := ⟨by decide, by decide⟩

theorem witness_StepKeepsReceptionInv :
    (bursting 0 true []).ReceptionInv ∧ step (bursting 0 true []) = .next (stepped (bursting 0 true [])) :=
  ⟨witness_ReceptionInv, rfl⟩

theorem witness_StepKeepsLineInv :
    (bursting 4 true [.code (.host 0)]).LineInv ∧
      step (bursting 4 true [.code (.host 0)]) = .next (stepped (bursting 4 true [.code (.host 0)])) :=
  ⟨witness_LineInv_end, rfl⟩

/-- `received24` with the edge that closes its frame to come. -/
def closing : State := { received24 with inputs := [.code (.edge 10850)] }

theorem witness_StepKeepsLatchInv :
    closing.LatchInv ∧ closing.IndexInv ∧ closing.cap ≤ 256 ∧ closing.External ∧ step closing = .next (stepped closing) :=
  ⟨.inl ⟨rfl, rfl, rfl, rfl, rfl, rfl⟩, ⟨by decide, by decide, by decide, by decide, by decide, by decide⟩, by decide,
    rfl, rfl⟩

theorem witness_StepKeepsLatchInv_published : (stepped closing).LatchInv := .inr ⟨rfl, by decide, 60, rfl⟩

theorem witness_NoStepStopsOnAgentInputs :
    (bursting 4 true [.code (.host 0)]).External ∧ (bursting 4 true [.code (.host 0)]).LineInv :=
  ⟨rfl, witness_LineInv_end⟩

theorem witness_EachRegisterHasItsWriters_edge :
    closing.External ∧ step closing = .next (stepped closing) ∧ (stepped closing).cls ≠ closing.cls ∧
      { (stepped closing).latch with avail := false } ≠ { closing.latch with avail := false } ∧
      closing.latch.avail = false ∧ (stepped closing).latch.avail = true ∧ closing.TakesEdge :=
  ⟨rfl, rfl, by decide, by decide, rfl, rfl, rfl, _, _, rfl⟩

/-- Reset with a filled latch and one host word to come. -/
def commanded (w : HostWord) : State := { State.reset with latch := filled, inputs := [.code (.host w)] }

theorem witness_EachRegisterHasItsWriters_commands :
    (stepped (commanded 0x2400000000000000)).latch.avail = false ∧
      (stepped (commanded 0x0100000000000004)).txPin ≠ State.reset.txPin ∧
      (stepped (commanded 0x0200000200000000)).proto ≠ State.reset.proto ∧
      (stepped (commanded 0x0300000100000000)).plen ≠ State.reset.plen ∧
      (stepped (commanded 0x0400000000000000)).repeatCount ≠ State.reset.repeatCount ∧
      (stepped (commanded 0x0500000000000064)).rxTol ≠ State.reset.rxTol := by decide

theorem witness_EachRegisterHasItsWriters_steps :
    step (commanded 0x2400000000000000) = .next (stepped (commanded 0x2400000000000000)) ∧
      step (commanded 0x0100000000000004) = .next (stepped (commanded 0x0100000000000004)) ∧
      step (commanded 0x0200000200000000) = .next (stepped (commanded 0x0200000200000000)) ∧
      step (commanded 0x0300000100000000) = .next (stepped (commanded 0x0300000100000000)) ∧
      step (commanded 0x0400000000000000) = .next (stepped (commanded 0x0400000000000000)) ∧
      step (commanded 0x0500000000000064) = .next (stepped (commanded 0x0500000000000064)) ∧
      ∀ w, (commanded w).External ∧ (commanded w).latch.avail = true :=
  ⟨rfl, rfl, rfl, rfl, rfl, rfl, fun _ => ⟨rfl, rfl⟩⟩

/-- Steps that write `RXCTL`: RX_ENABLE, RX_DISABLE, the start step of a burst that suspends reception, its end step. -/
theorem witness_EachRegisterHasItsWriters_rxCtl :
    (stepped (commanded 0x2000000000000002)).rxCtl ≠ State.reset.rxCtl ∧
      (stepped { receiving 0 1 0 0 with inputs := [.code (encode .rxDisable)] }).rxCtl ≠ (receiving 0 1 0 0).rxCtl ∧
      (stepped { toBurst with rxCtl := { en := true, live := true, pin := 2 } }).rxCtl ≠
        { en := true, live := true, pin := 2 } ∧
      (stepped (bursting 4 true [])).rxCtl ≠ (bursting 4 true []).rxCtl ∧ (bursting 4 true []).TakesBurstEnd := by
  refine ⟨by decide, by decide, by decide, by decide, ⟨rfl, ?_⟩, by decide⟩
  intro t rest h; cases h

/-- Steps that write `TXSEQ` and `TXLEVEL`: a transmit command's start step and a pulse step. -/
theorem witness_EachRegisterHasItsWriters_tx :
    (stepped toBurst).seq ≠ toBurst.seq ∧
      (stepped (bursting 0 true [])).seq ≠ (bursting 0 true []).seq ∧
      (stepped (bursting 0 true [])).txLevel ≠ (bursting 0 true []).txLevel ∧ (bursting 0 true []).TakesPulse := by
  refine ⟨by decide, by decide, by decide, ⟨rfl, ?_⟩, by decide⟩
  intro t rest h; cases h

theorem witness_EachRegisterHasItsWriters_seqSteps :
    step (commanded 0x2000000000000002) = .next (stepped (commanded 0x2000000000000002)) ∧
      step { receiving 0 1 0 0 with inputs := [.code (encode .rxDisable)] } =
        .next (stepped { receiving 0 1 0 0 with inputs := [.code (encode .rxDisable)] }) ∧
      step { toBurst with rxCtl := { en := true, live := true, pin := 2 } } =
        .next (stepped { toBurst with rxCtl := { en := true, live := true, pin := 2 } }) ∧
      step toBurst = .next (stepped toBurst) ∧
      step (bursting 4 true []) = .next (stepped (bursting 4 true [])) ∧
      step (bursting 0 true []) = .next (stepped (bursting 0 true [])) ∧
      toBurst.External ∧ (bursting 4 true []).External ∧ (bursting 0 true []).External :=
  ⟨rfl, rfl, rfl, rfl, rfl, rfl, rfl, rfl, rfl⟩

/-- The four commands of RX_READ_CLEAR with an edge between each two. -/
def readClear : State :=
  { receiving 10850 50 1 0 with
    latch := filled
    inputs := [.code (encode .rxDisable)] ++ edgeInputs [1] ++ [.code (encode .rxTake)] ++ edgeInputs [2] ++
      [.code (encode .rxClear)] ++ edgeInputs [3] ++ [.code (encode (.rxEnable 2))] ++ [] }

theorem witness_ReadClearLosesNoResult :
    readClear.seq.busy = false ∧ readClear.rxCtl.en = true ∧
      readClear.inputs = [.code (encode .rxDisable)] ++ edgeInputs [1] ++ [.code (encode .rxTake)] ++ edgeInputs [2] ++
        [.code (encode .rxClear)] ++ edgeInputs [3] ++ [.code (encode (.rxEnable 2))] ++ [] := ⟨rfl, rfl, rfl⟩

theorem witness_ReservedMicroOpStops :
    (ready [.code (.micro 0b0011)]).inputs = .code (.micro 0b0011) :: [] ∧
      (ready [.code (.micro 0b0011)]).seq.busy = false ∧ 0b1010 ≤ (0b1010 : MicroCode).toNat ∧
      0b1010 ≤ (0b1111 : MicroCode).toNat := ⟨rfl, rfl, by decide, by decide⟩

end Sys2Proof.Tests
end

section
/-! PROOFS. The footprint of every operation: the registers of spec/10_state.md R20 that it can write, and that it writes
no other (R48). -/

namespace Sys2Proof.Machine

open Sys2Proof

/-! ### The registers that an operation can write -/

/-- The registers of spec/10_state.md R20, by their writers; `result` is every field of the latch but `AVAIL`. -/
inductive Register where
  | txPin
  | proto
  | plen
  | repeatCount
  | rxTol
  | rxCtl
  | cls
  | result
  | avail
  | seq
  | txLevel

/-- A register holds in `t` what it holds in `s`. -/
def State.Keeps (s t : State) : Register → Prop
  | .txPin => t.txPin = s.txPin
  | .proto => t.proto = s.proto
  | .plen => t.plen = s.plen
  | .repeatCount => t.repeatCount = s.repeatCount
  | .rxTol => t.rxTol = s.rxTol
  | .rxCtl => t.rxCtl = s.rxCtl
  | .cls => t.cls = s.cls
  | .result => { t.latch with avail := false } = { s.latch with avail := false }
  | .avail => t.latch.avail = s.latch.avail
  | .seq => t.seq = s.seq
  | .txLevel => t.txLevel = s.txLevel

/-- Every register outside `written` holds in `t` what it holds in `s`. -/
def State.KeepsAllBut (written : List Register) (s t : State) : Prop := ∀ r, r ∉ written → s.Keeps t r

/-- The registers that an operation can write; `exec_footprint` says that it writes no other. -/
def footprint : Instr → List Register
  | .setTxPin _ => [.txPin]
  | .setProtocol _ | .setProtocolPl _ _ => [.proto, .plen]
  | .setRepeat _ => [.repeatCount]
  | .setRxTolerance _ => [.rxTol]
  | .txCode _ _ | .txTristate _ _ => [.rxCtl, .seq]
  | .rxEnable _ | .rxDisable => [.rxCtl]
  | .rxAvailable | .rxTake => []
  | .rxClear => [.avail]
  | .emitBit0 | .emitBit1 | .emitSync | .emitSymZero | .emitSymFloat | .emitSym10 | .emitSymOne => [.txLevel]
  | .decode | .commit => [.result, .avail]
  | .edge _ => [.cls, .result, .avail]

variable {s t u : State} {r : Register} {i : Instr}

theorem State.Keeps.refl (s : State) (r : Register) : s.Keeps s r := by cases r <;> rfl

theorem State.Keeps.trans (h₁ : s.Keeps t r) (h₂ : t.Keeps u r) : s.Keeps u r := by
  cases r <;> exact Eq.trans h₂ h₁

/-- Taking an input writes no register. -/
theorem withInputs_keeps (s : State) (rest : List Input) (r : Register) : s.Keeps (s.withInputs rest) r := by
  cases r <;> rfl

/-- A command that is a silent no-op writes no register (spec/60_exceptions.md R280). -/
theorem record_respond_keeps (s : State) (e : Event) (x : Response) (r : Register) :
    s.Keeps ((s.record e).respond x) r := by
  cases r <;> rfl

/-- A pulse step writes `TXSEQ` and `TXLEVEL` (spec/41_transmission_controller.md R145). -/
theorem pulseStep_keeps (s : State) (p : Pulse) : s.KeepsAllBut [.seq, .txLevel] (s.pulseStep p) := by
  intro r hr
  cases r <;> simp_all [State.Keeps]

/-- The start step writes `RXCTL` and `TXSEQ` (R144). -/
theorem startBurst_keeps (s : State) (ps : List Pulse) : s.KeepsAllBut [.rxCtl, .seq] (s.startBurst ps) := by
  intro r hr
  rw [startBurst_eq]
  cases r <;> simp_all [State.Keeps]

/-- The end step writes `RXCTL` and `TXSEQ` (R146). -/
theorem endBurst_keeps (s : State) : s.KeepsAllBut [.rxCtl, .seq] s.endBurst := by
  intro r hr
  rw [endBurst_eq]
  cases r <;> simp_all [State.Keeps]

/-- A transmit command whose operand passes or fails its range check: a silent no-op, or the start step of a non-empty
burst (R143, R144, R152). -/
theorem rangeChecked_transmit_cases {p : Prop} [Decidable p] {ops : List EncOp}
    (h : (if p then .next s.operandOutOfRange else .next (s.transmit ops) : Host.Outcome State Fault Refusal) = .next t) :
    (∃ e, t = (s.record e).respond .none) ∨
    (s.txPin.valid = true ∧ burst ops s.params s.repeatCount.toNat ≠ [] ∧
      t = s.startBurst (burst ops s.params s.repeatCount.toNat)) := by
  split at h <;> cases h
  · exact .inl ⟨_, rfl⟩
  · exact transmit_cases s ops

/-- A transmit command writes `RXCTL` and `TXSEQ`, whatever its range check says. -/
theorem rangeChecked_transmit_keeps {p : Prop} [Decidable p] {ops : List EncOp}
    (h : (if p then .next s.operandOutOfRange else .next (s.transmit ops) : Host.Outcome State Fault Refusal) = .next t) :
    s.KeepsAllBut [.rxCtl, .seq] t := by
  rcases rangeChecked_transmit_cases h with ⟨e, rfl⟩ | ⟨-, -, rfl⟩
  · intro r _
    exact record_respond_keeps s e .none r
  · exact startBurst_keeps s _

/-- An encoder micro-operation on its own writes `TXLEVEL` (spec/40_pulse_encoder.md R127). -/
theorem encode_keeps (s : State) (op : EncOp) : s.KeepsAllBut [.txLevel] (s.encode op) := by
  intro r hr
  rw [State.encode, emitPulses_eq]
  cases r <;> simp_all [State.Keeps]

/-- DECODE of a frame writes the latch at most (spec/43_protocol_decoder.md R200). -/
theorem decodeClosed_keeps (s : State) (frame : List Micros) :
    s.KeepsAllBut [.result, .avail] (s.decodeClosed frame) := by
  intro r hr
  rcases decodeClosed_cases s frame with ⟨e, he⟩ | ⟨a, -, -, ha⟩
  · rw [he]; cases r <;> rfl
  · rw [ha]; cases r <;> simp_all [State.Keeps]

/-- The classifier's step writes the classifier and, by DECODE, the latch (spec/42_edge_classifier.md R173). -/
theorem classify_keeps (s : State) (d : Micros) : s.KeepsAllBut [.cls, .result, .avail] (s.classify d) := by
  intro r hr
  rcases classify_cases s d with ⟨-, -, -, h⟩ | ⟨-, -, h⟩ | ⟨-, -, h⟩ | ⟨-, -, -, h⟩ | ⟨-, -, -, h⟩ <;> rw [h]
  · have hd := decodeClosed_keeps { s with cls := s.cls.countSync } s.cls.closedFrame r (by simp_all)
    cases r <;> simp_all [State.Keeps]
  all_goals cases r <;> simp_all [State.Keeps]

theorem deliverEdge_keeps (s : State) (τ : Micros) : s.KeepsAllBut [.cls, .result, .avail] (s.deliverEdge τ) := by
  intro r hr
  rcases deliverEdge_cases s τ with ⟨-, h⟩ | ⟨-, h⟩ <;> rw [h]
  · exact State.Keeps.refl s r
  · refine State.Keeps.trans ?_ (classify_keeps _ _ r hr)
    cases r <;> simp_all [State.Keeps]

theorem unregisterIfLive_keeps (s : State) (r : Register) : s.Keeps s.unregisterIfLive r := by
  unfold State.unregisterIfLive
  split <;> cases r <;> rfl

/-- RX_DISABLE writes `RXCTL` (spec/45_host_configuration.md R256). -/
theorem stopReception_keeps (s : State) : s.KeepsAllBut [.rxCtl] s.stopReception := by
  intro r hr
  unfold State.stopReception
  split <;> cases r <;> simp_all [State.Keeps]

theorem exec_encOp (op : EncOp) (s : State) : exec op.instr s = .next (s.encode op) := by cases op <;> rfl

/-- An operation writes no register outside its footprint (spec/10_state.md R48). -/
theorem exec_footprint (h : exec i s = .next t) : s.KeepsAllBut (footprint i) t := by
  have encoder : ∀ op : EncOp, exec op.instr s = .next t → s.KeepsAllBut [.txLevel] t := by
    intro op hop
    rw [exec_encOp] at hop
    cases hop
    exact encode_keeps s op
  cases i with
  | txCode value len => exact rangeChecked_transmit_keeps h
  | txTristate packed count => exact rangeChecked_transmit_keeps h
  | rxEnable pin =>
    cases h
    intro r hr
    refine (unregisterIfLive_keeps s r).trans ?_
    cases r <;> simp_all [State.Keeps, footprint]
  | rxDisable =>
    cases h
    intro r hr
    refine (stopReception_keeps s r hr).trans ?_
    cases r <;> rfl
  | emitBit0 => exact encoder .bit0 h
  | emitBit1 => exact encoder .bit1 h
  | emitSync => exact encoder .sync h
  | emitSymZero => exact encoder .symZero h
  | emitSymFloat => exact encoder .symFloat h
  | emitSym10 => exact encoder .sym10 h
  | emitSymOne => exact encoder .symOne h
  | decode => cases h; exact decodeClosed_keeps s _
  | edge τ => cases h; exact deliverEdge_keeps s τ
  | setTxPin | setProtocol | setProtocolPl | setRepeat | setRxTolerance | rxAvailable | rxTake | rxClear | commit =>
    cases h
    intro r hr
    cases r <;> simp_all [State.Keeps, footprint]

end Sys2Proof.Machine
end

section
/-! PROOFS. What one step of the machine can be, said once with the guards of each kind (spec/20_memory.md R74, R77), and
the statements on the state: the reception and line invariants, the writers of each register, the presets. -/

namespace Sys2Proof.Machine

open Sys2Proof

variable {s t : State} {r : Register} {i : Instr}

/-! ### Reading the footprints -/

theorem txPin_mem_footprint (h : .txPin ∈ footprint i) : ∃ pin, i = .setTxPin pin := by
  cases i <;> simp_all [footprint]

theorem proto_plen_mem_footprint (h : .proto ∈ footprint i ∨ .plen ∈ footprint i) :
    (∃ id, i = .setProtocol id) ∨ ∃ id us, i = .setProtocolPl id us := by
  cases i <;> simp_all [footprint]

theorem repeatCount_mem_footprint (h : .repeatCount ∈ footprint i) : ∃ count, i = .setRepeat count := by
  cases i <;> simp_all [footprint]

theorem rxTol_mem_footprint (h : .rxTol ∈ footprint i) : ∃ percent, i = .setRxTolerance percent := by
  cases i <;> simp_all [footprint]

/-- Of the host commands only RX_CLEAR writes `AVAIL` (R41). -/
theorem avail_mem_footprint (hi : i.format = .host) (h : .avail ∈ footprint i) : i = .rxClear := by
  cases i <;> simp_all [footprint, Instr.format]

/-- The transmit commands TX_CODE and TX_TRISTATE. -/
def IsTransmit (i : Instr) : Prop := (∃ value len, i = .txCode value len) ∨ ∃ packed count, i = .txTristate packed count

theorem rxCtl_mem_footprint (h : .rxCtl ∈ footprint i) : (∃ pin, i = .rxEnable pin) ∨ i = .rxDisable ∨ IsTransmit i := by
  cases i <;> simp_all [footprint, IsTransmit]

theorem seq_mem_footprint (h : .seq ∈ footprint i) : IsTransmit i := by
  cases i <;> simp_all [footprint, IsTransmit]

theorem txLevel_mem_footprint (h : .txLevel ∈ footprint i) : ∃ op : EncOp, i = op.instr := by
  cases i with
  | emitBit0 => exact ⟨.bit0, rfl⟩
  | emitBit1 => exact ⟨.bit1, rfl⟩
  | emitSync => exact ⟨.sync, rfl⟩
  | emitSymZero => exact ⟨.symZero, rfl⟩
  | emitSymFloat => exact ⟨.symFloat, rfl⟩
  | emitSym10 => exact ⟨.sym10, rfl⟩
  | emitSymOne => exact ⟨.symOne, rfl⟩
  | _ => simp [footprint] at h

theorem IsTransmit.format_ne_edge (hi : IsTransmit i) : i.format ≠ .edge := by
  rcases hi with ⟨_, _, rfl⟩ | ⟨_, _, rfl⟩ <;> simp [Instr.format]

theorem IsTransmit.rxCtl_mem (hi : IsTransmit i) : .rxCtl ∈ footprint i := by
  rcases hi with ⟨_, _, rfl⟩ | ⟨_, _, rfl⟩ <;> simp [footprint]

theorem encOp_format_ne_edge (op : EncOp) : op.instr.format ≠ .edge := by
  cases op <;> simp [EncOp.instr, Instr.format]

/-! ### What the commands that write `RXCTL` and `TXSEQ` leave there -/

/-- What TX_CODE and TX_TRISTATE do (R147, R148). -/
theorem exec_transmit_cases (hi : IsTransmit i) (h : exec i s = .next t) :
    (∃ e, t = (s.record e).respond .none) ∨
    ∃ ops, s.txPin.valid = true ∧ burst ops s.params s.repeatCount.toNat ≠ [] ∧
      t = s.startBurst (burst ops s.params s.repeatCount.toNat) := by
  rcases hi with ⟨value, len, rfl⟩ | ⟨packed, count, rfl⟩
  · exact (rangeChecked_transmit_cases h).imp_right fun hb => ⟨_, hb⟩
  · exact (rangeChecked_transmit_cases h).imp_right fun hb => ⟨_, hb⟩

theorem exec_rxEnable_rxCtl {pin : Pin} (h : exec (.rxEnable pin) s = .next t) :
    t.rxCtl = { en := true, live := true, pin := pin } := by
  cases h
  rfl

theorem exec_rxDisable_rxCtl (h : exec .rxDisable s = .next t) :
    t.rxCtl = if s.rxCtl.en then { s.rxCtl with en := false, live := false } else s.rxCtl := by
  cases h
  cases hen : s.rxCtl.en <;> simp [State.stopReception, hen]

/-! ### The format of what a code decodes to -/

theorem requireZero_ok {zero : Bool} {opc : BitVec 8} {j : Instr} (h : requireZero zero opc i = .ok j) : j = i := by
  cases zero <;> cases h
  rfl

/-- A code decodes to an operation of its own format (spec/30_encoding.md R90). -/
theorem decodeCode_format {c : Code} (h : decodeCode c = .ok i) : i.format = c.format := by
  cases c with
  | host w =>
    simp only [decodeCode, decodeHost] at h
    split at h
    case h_13 => cases h
    all_goals rw [requireZero_ok h]; rfl
  | micro u =>
    simp only [decodeCode, decodeMicro] at h
    split at h <;> cases h <;> rfl
  | edge τ => cases h; rfl

/-! ### What one step can be -/

/-- The inputs that a step of the sequencer leaves: all of them, or those after a turn. -/
def State.TurnLeaves (s : State) (rest : List Input) : Prop := s.inputs = rest ∨ s.inputs = .turn :: rest

/-- `StepTo s t`: the kinds of a step from `s` to `t`, each with its guards; `stepTo_of_step` says that there is no other. -/
inductive StepTo (s : State) : State → Prop
  /-- The block waits (spec/60_exceptions.md R289). -/
  | wait (rest : List Input) (left : s.TurnLeaves rest) (idle : s.seq.busy = false) : StepTo s (s.withInputs rest)
  /-- A pulse step (spec/41_transmission_controller.md R145). -/
  | pulse (rest : List Input) (p : Pulse) (left : s.TurnLeaves rest) (takes : s.TakesPulse)
      (at_pos : s.seq.pulses[s.seq.pos]? = some p) : StepTo s ((s.withInputs rest).pulseStep p)
  /-- The end step of a burst (R146). -/
  | burstEnd (rest : List Input) (left : s.TurnLeaves rest) (takes : s.TakesBurstEnd) :
      StepTo s (s.withInputs rest).endBurst
  /-- An operation runs; only an edge does so in a burst (R141). -/
  | operation (c : Code) (rest : List Input) (i : Instr) (t : State) (taken : s.inputs = .code c :: rest)
      (free : s.seq.busy = false ∨ c.format = .edge) (decoded : decodeCode c = .ok i)
      (ran : exec i (s.withInputs rest) = .next t) : StepTo s t
  /-- A reserved command word completes as a no-op (spec/30_encoding.md R94). -/
  | reserved (w : HostWord) (rest : List Input) (taken : s.inputs = .code (.host w) :: rest) (idle : s.seq.busy = false) :
      StepTo s (s.withInputs rest).reservedWord

/-- A turn of the sequencer, with no edge first, is a wait, a pulse step or the end step. -/
theorem stepTo_of_sequencerTurn {rest : List Input} (left : s.TurnLeaves rest)
    (noEdge : ∀ τ rest', s.inputs ≠ .code (.edge τ) :: rest') (h : (s.withInputs rest).sequencerTurn = .next t) :
    StepTo s t := by
  rcases sequencerTurn_cases (s.withInputs rest) with ⟨hb, he⟩ | ⟨p, hb, hp, he⟩ | ⟨hb, hp, he⟩ | ⟨-, -, he⟩ <;>
    rw [he] at h <;> cases h
  · exact .wait rest left hb
  · exact .pulse rest p left ⟨⟨hb, noEdge⟩, (List.getElem?_eq_some_iff.mp hp).1⟩ hp
  · exact .burstEnd rest left ⟨⟨hb, noEdge⟩, hp⟩

theorem stepTo_of_step (h : step s = .next t) : StepTo s t := by
  rcases step_cases s with ⟨he, hin⟩ | ⟨rest, hin, he⟩ | ⟨c, rest, i, hin, hfree, hdec, he⟩ | ⟨w, rest, e, hin, hb, -, he⟩ |
    ⟨u, rest, -, -, -, he⟩ <;> rw [he] at h
  · refine stepTo_of_sequencerTurn (.inl rfl) ?_ h
    rintro τ rest' heq
    rcases hin with hnil | ⟨-, c, rest, hc, hf⟩
    · simp [hnil] at heq
    · rw [hc] at heq
      cases heq
      exact hf rfl
  · exact stepTo_of_sequencerTurn (.inr hin) (by simp [hin]) h
  · exact .operation c rest i t hin hfree hdec h
  · cases h
    exact .reserved w rest hin hb
  · cases h

/-- An operation of no edge runs only outside a burst (R141). -/
theorem idle_of_operation {c : Code} (free : s.seq.busy = false ∨ c.format = .edge) (decoded : decodeCode c = .ok i)
    (hi : i.format ≠ .edge) : s.seq.busy = false :=
  free.resolve_right fun hc => hi ((decodeCode_format decoded).trans hc)

/-! ### Reception -/

/-- The reception invariant reads `RXCTL` and `TXSEQ` only. -/
theorem State.ReceptionInv.congr (hs : s.ReceptionInv) (hrx : t.rxCtl = s.rxCtl) (hseq : t.seq = s.seq) :
    t.ReceptionInv := by
  constructor
  · rw [hrx, hseq]; exact hs.idle
  · rw [hrx, hseq]; exact hs.burst

/-- A pulse step moves `POS` only, which the invariant does not read. -/
theorem pulseStep_keeps_receptionInv (hs : s.ReceptionInv) (p : Pulse) : (s.pulseStep p).ReceptionInv :=
  ⟨hs.idle, hs.burst⟩

/-- A burst starts with `LIVE` moved to `SUSP` (R144). -/
theorem startBurst_keeps_receptionInv (hs : s.ReceptionInv) (idle : s.seq.busy = false) (ps : List Pulse) :
    (s.startBurst ps).ReceptionInv := by
  have hlive := (hs.idle idle).1
  rw [startBurst_eq]
  exact ⟨nofun, fun _ => ⟨rfl, hlive.symm⟩⟩

/-- A burst that suspended reception ends with `LIVE` restored (R146). -/
theorem endBurst_keeps_receptionInv (hs : s.ReceptionInv) (busy : s.seq.busy = true) : s.endBurst.ReceptionInv := by
  obtain ⟨hlive, hen⟩ := hs.burst busy
  rw [endBurst_eq]
  refine ⟨fun _ => ⟨?_, rfl⟩, nofun⟩
  cases hsusp : s.seq.susp <;> simp_all

/-- Outside a burst, a write of `RXCTL` keeps the invariant when it leaves `LIVE = EN`. -/
theorem State.ReceptionInv.of_rxCtl_written (hs : s.ReceptionInv) (idle : s.seq.busy = false) (hseq : t.seq = s.seq)
    (hrx : t.rxCtl.live = t.rxCtl.en) : t.ReceptionInv := by
  constructor
  · intro _
    rw [hseq]
    exact ⟨hrx, (hs.idle idle).2⟩
  · rw [hseq, idle]
    exact nofun

/-- Outside a burst every operation that writes `RXCTL` leaves `LIVE = EN` or starts a burst (R255, R256, R144). -/
theorem exec_keeps_receptionInv (hs : s.ReceptionInv) (free : s.seq.busy = false ∨ i.format = .edge)
    (h : exec i s = .next t) : t.ReceptionInv := by
  have kept := exec_footprint h
  by_cases hrx : .rxCtl ∈ footprint i
  · rcases rxCtl_mem_footprint hrx with ⟨pin, rfl⟩ | rfl | htx
    · have idle := free.resolve_right (by simp [Instr.format])
      exact hs.of_rxCtl_written idle (kept .seq (by simp [footprint])) (by rw [exec_rxEnable_rxCtl h])
    · have idle := free.resolve_right (by simp [Instr.format])
      refine hs.of_rxCtl_written idle (kept .seq (by simp [footprint])) ?_
      rw [exec_rxDisable_rxCtl h]
      split
      · rfl
      · exact (hs.idle idle).1
    · have idle := free.resolve_right htx.format_ne_edge
      rcases exec_transmit_cases htx h with ⟨e, rfl⟩ | ⟨ops, -, -, rfl⟩
      · exact hs.congr rfl rfl
      · exact startBurst_keeps_receptionInv hs idle _
  · exact hs.congr (kept .rxCtl hrx) (kept .seq fun hseq => hrx (seq_mem_footprint hseq).rxCtl_mem)

theorem stepTo_keeps_receptionInv (hs : s.ReceptionInv) (h : StepTo s t) : t.ReceptionInv := by
  have taken (rest : List Input) : (s.withInputs rest).ReceptionInv := hs.congr rfl rfl
  cases h with
  | wait rest => exact taken rest
  | pulse rest p => exact pulseStep_keeps_receptionInv (taken rest) p
  | burstEnd rest _ takes =>
    obtain ⟨⟨busy, -⟩, -⟩ := takes
    exact endBurst_keeps_receptionInv (taken rest) busy
  | operation c rest i _ _ free decoded ran =>
    exact exec_keeps_receptionInv (taken rest) (decodeCode_format decoded ▸ free) ran
  | reserved w rest => exact hs.congr rfl rfl

/-- Settles O52: each kind of step keeps the invariant; the two ends of a burst move `LIVE` to `SUSP` and back. -/
theorem stepKeepsReceptionInv : Obligations.StepKeepsReceptionInv :=
  fun _ _ hs h => stepTo_keeps_receptionInv hs (stepTo_of_step h)

/-! ### The shape of a burst's pulses -/

theorem paired_append {a b : List Pulse} (ha : paired a = true) (hb : paired b = true) : paired (a ++ b) = true := by
  induction a using paired.induct with
  | case1 => exact hb
  | case2 x => simp [paired] at ha
  | case3 x y rest ih => simp_all [paired]

/-- In a list of pairs the pulse at an even position is HIGH and the one at an odd position LOW (R128). -/
theorem level_of_paired {ps : List Pulse} (h : paired ps = true) {k : Nat} {p : Pulse} (hp : ps[k]? = some p) :
    p.level = if k % 2 = 0 then .high else .low := by
  induction ps using paired.induct generalizing k with
  | case1 => simp at hp
  | case2 x => simp [paired] at h
  | case3 x y rest ih =>
    simp only [paired, Bool.and_eq_true, beq_iff_eq] at h
    obtain ⟨⟨hx, hy⟩, hrest⟩ := h
    match k, hp with
    | 0, hp => cases hp; exact hx
    | 1, hp => cases hp; exact hy
    | k + 2, hp => simpa using ih hrest hp

theorem length_even_of_paired {ps : List Pulse} (h : paired ps = true) : ps.length % 2 = 0 := by
  induction ps using paired.induct with
  | case1 => rfl
  | case2 x => simp [paired] at h
  | case3 x y rest ih =>
    simp only [paired, Bool.and_eq_true] at h
    have hrest := ih h.2
    simp only [List.length_cons]
    omega

/-- The line is LOW after a list of pairs (R128, R150). -/
theorem getLast_level_of_paired {ps : List Pulse} (h : paired ps = true) {p : Pulse} (hp : ps.getLast? = some p) :
    p.level = .low := by
  have hpos : 0 < ps.length := List.length_pos_of_mem (List.mem_of_getLast? hp)
  have heven := length_even_of_paired h
  rw [List.getLast?_eq_getElem?] at hp
  rw [level_of_paired h hp, if_neg (by omega)]

theorem enc_paired (op : EncOp) (params : Option Params) : paired (enc op params) = true := by
  cases params with
  | none => rfl
  | some p => cases op <;> rfl

theorem flatMap_enc_paired (ops : List EncOp) (params : Option Params) :
    paired (ops.flatMap fun op => enc op params) = true := by
  induction ops with
  | nil => rfl
  | cons op rest ih => exact paired_append (enc_paired op params) ih

theorem burst_paired (ops : List EncOp) (params : Option Params) (n : Nat) : paired (burst ops params n) = true :=
  flatMap_enc_paired _ params

/-! ### The line -/

/-- The line invariant reads `TXSEQ` and `TXLEVEL` only. -/
theorem State.LineInv.congr (hs : s.LineInv) (hseq : t.seq = s.seq) (hlevel : t.txLevel = s.txLevel) : t.LineInv := by
  constructor
  · rw [hseq, hlevel]; exact hs.idle
  · rw [hseq, hlevel]; exact hs.burst

/-- A pulse step leaves the line at the level of the pulse before the new `POS` (R145). -/
theorem pulseStep_keeps_lineInv (hs : s.LineInv) (busy : s.seq.busy = true) {p : Pulse}
    (hp : s.seq.pulses[s.seq.pos]? = some p) : (s.pulseStep p).LineInv := by
  obtain ⟨hpaired, -, -⟩ := hs.burst busy
  refine ⟨fun h => absurd h (by simp [busy]), fun _ => ⟨hpaired, (List.getElem?_eq_some_iff.mp hp).1, ?_⟩⟩
  have hparity : (s.seq.pos + 1) % 2 = 0 ↔ ¬ s.seq.pos % 2 = 0 := by omega
  simp only [State.pulseStep_txLevel, State.pulseStep_seq, level_of_paired hpaired hp, hparity, ite_not]

/-- A burst ends after whole pairs, so the line is LOW (R146, R150). -/
theorem endBurst_keeps_lineInv (hs : s.LineInv) (busy : s.seq.busy = true) (hpos : s.seq.pos = s.seq.pulses.length) :
    s.endBurst.LineInv := by
  obtain ⟨hpaired, -, hlevel⟩ := hs.burst busy
  rw [hpos, if_pos (length_even_of_paired hpaired)] at hlevel
  rw [endBurst_eq]
  exact ⟨fun _ => hlevel, nofun⟩

/-- A burst starts on the LOW line with pairs to send (R144, R142). -/
theorem startBurst_keeps_lineInv (hs : s.LineInv) (idle : s.seq.busy = false) {ps : List Pulse}
    (hps : paired ps = true) : (s.startBurst ps).LineInv := by
  rw [startBurst_eq]
  exact ⟨nofun, fun _ => ⟨hps, Nat.zero_le _, hs.idle idle⟩⟩

/-- An encoder micro-operation on its own emits whole pairs, so the line is LOW again (R127, R128). -/
theorem encode_txLevel (s : State) (op : EncOp) (h : s.txLevel = .low) : (s.encode op).txLevel = .low := by
  rw [State.encode, emitPulses_eq]
  cases hl : (enc op s.params).getLast? with
  | none => simpa using h
  | some p => simpa using getLast_level_of_paired (enc_paired op s.params) hl

theorem encode_keeps_lineInv (hs : s.LineInv) (idle : s.seq.busy = false) (op : EncOp) : (s.encode op).LineInv := by
  have hseq : (s.encode op).seq = s.seq := encode_keeps s op .seq (by simp)
  constructor
  · exact fun _ => encode_txLevel s op (hs.idle idle)
  · rw [hseq, idle]
    exact nofun

/-- Of the operations only a transmit command writes `TXSEQ` and only an encoder micro-operation `TXLEVEL`, both outside a
burst. -/
theorem exec_keeps_lineInv (hs : s.LineInv) (free : s.seq.busy = false ∨ i.format = .edge)
    (h : exec i s = .next t) : t.LineInv := by
  have kept := exec_footprint h
  by_cases hseq : .seq ∈ footprint i
  · have htx := seq_mem_footprint hseq
    rcases exec_transmit_cases htx h with ⟨e, rfl⟩ | ⟨ops, -, -, rfl⟩
    · exact hs.congr rfl rfl
    · exact startBurst_keeps_lineInv hs (free.resolve_right htx.format_ne_edge) (burst_paired ops _ _)
  · by_cases hlevel : .txLevel ∈ footprint i
    · obtain ⟨op, rfl⟩ := txLevel_mem_footprint hlevel
      rw [exec_encOp] at h
      cases h
      exact encode_keeps_lineInv hs (free.resolve_right (encOp_format_ne_edge op)) op
    · exact hs.congr (kept .seq hseq) (kept .txLevel hlevel)

theorem stepTo_keeps_lineInv (hs : s.LineInv) (h : StepTo s t) : t.LineInv := by
  have taken (rest : List Input) : (s.withInputs rest).LineInv := hs.congr rfl rfl
  cases h with
  | wait rest => exact taken rest
  | pulse rest p _ takes at_pos =>
    obtain ⟨⟨busy, -⟩, -⟩ := takes
    exact pulseStep_keeps_lineInv (taken rest) busy at_pos
  | burstEnd rest _ takes =>
    obtain ⟨⟨busy, -⟩, at_end⟩ := takes
    exact endBurst_keeps_lineInv (taken rest) busy at_end
  | operation c rest i _ _ free decoded ran =>
    exact exec_keeps_lineInv (taken rest) (decodeCode_format decoded ▸ free) ran
  | reserved w rest => exact hs.congr rfl rfl

/-- Settles O53: each kind of step keeps the invariant; a burst is whole pairs, HIGH at even positions. -/
theorem stepKeepsLineInv : Obligations.StepKeepsLineInv :=
  fun _ _ hs h => stepTo_keeps_lineInv hs (stepTo_of_step h)

/-! ### The writers -/

/-- A change of `AVAIL` in a frame's decode is to set it (spec/10_state.md R41). -/
theorem decodeClosed_avail (frame : List Micros) (h : s.latch.avail = true) :
    (s.decodeClosed frame).latch.avail = true := by
  rcases decodeClosed_cases s frame with ⟨e, he⟩ | ⟨a, -, -, ha⟩
  · rw [he]; exact h
  · rw [ha]; rfl

theorem classify_avail (d : Micros) (h : s.latch.avail = true) : (s.classify d).latch.avail = true := by
  rcases classify_cases s d with ⟨-, -, -, hc⟩ | ⟨-, -, hc⟩ | ⟨-, -, hc⟩ | ⟨-, -, -, hc⟩ | ⟨-, -, -, hc⟩ <;> rw [hc]
  · exact decodeClosed_avail (s := { s with cls := s.cls.countSync }) _ h
  all_goals exact h

/-- An edge never clears `AVAIL`. -/
theorem deliverEdge_avail (τ : Micros) (h : s.latch.avail = true) : (s.deliverEdge τ).latch.avail = true := by
  rcases deliverEdge_cases s τ with ⟨-, he⟩ | ⟨-, he⟩ <;> rw [he]
  · exact h
  · exact classify_avail _ h

theorem deliverEdge_lost (τ : Micros) (h : s.rxCtl.live = false) : s.deliverEdge τ = s := by
  simp [State.deliverEdge, h]

/-- What wrote a register in a step of the two agents: `step_writers` ties it to the step. -/
inductive WrittenBy (s t : State) (r : Register) : Prop
  | edge (takes : s.TakesEdge) (mem : r ∈ [Register.cls, .result, .avail])
      (sets : s.latch.avail = true → t.latch.avail = true)
  | command (i : Instr) (rest : List Input) (takes : s.TakesCommand i) (mem : r ∈ footprint i)
      (ran : exec i (s.withInputs rest) = .next t)
  | pulse (takes : s.TakesPulse) (mem : r ∈ [Register.seq, .txLevel])
  | burstEnd (takes : s.TakesBurstEnd) (mem : r ∈ [Register.rxCtl, .seq])

/-- A register that changed after the input was taken is one of those written. -/
theorem mem_of_not_keeps {written : List Register} {rest : List Input} (hr : ¬s.Keeps t r)
    (kept : (s.withInputs rest).KeepsAllBut written t) : r ∈ written :=
  Classical.byContradiction fun hm => hr ((withInputs_keeps s rest r).trans (kept r hm))

/-- A register that a step changes on the inputs of the two agents has one of the writers of `WrittenBy` (R48). -/
theorem step_writers (hx : s.External) (h : step s = .next t) (hr : ¬s.Keeps t r) : WrittenBy s t r := by
  cases stepTo_of_step h with
  | wait rest => exact absurd (withInputs_keeps s rest r) hr
  | reserved w rest =>
    exact absurd ((withInputs_keeps s rest r).trans (record_respond_keeps _ _ _ r)) hr
  | pulse rest p _ takes => exact .pulse takes (mem_of_not_keeps hr (pulseStep_keeps _ p))
  | burstEnd rest _ takes => exact .burstEnd takes (mem_of_not_keeps hr (endBurst_keeps _))
  | operation c rest i _ taken free decoded ran =>
    cases c with
    | micro u => simp [State.External, taken, Input.external] at hx
    | host w =>
      have idle := free.resolve_right nofun
      exact .command i rest ⟨idle, w, rest, taken, decoded⟩ (mem_of_not_keeps hr (exec_footprint ran)) ran
    | edge τ =>
      cases decoded
      cases ran
      cases hlive : s.rxCtl.live with
      | false =>
        rw [deliverEdge_lost τ (by exact hlive)] at hr
        exact absurd (withInputs_keeps s rest r) hr
      | true =>
        exact .edge ⟨hlive, τ, rest, taken⟩ (mem_of_not_keeps hr (deliverEdge_keeps _ τ))
          (deliverEdge_avail (s := s.withInputs rest) τ)

theorem State.TakesCommand.format (h : s.TakesCommand i) : i.format = .host := by
  obtain ⟨-, w, rest, -, decoded⟩ := h
  exact decodeCode_format (c := .host w) decoded

theorem State.TakesCommand.takesTransmit (h : s.TakesCommand i) (hi : IsTransmit i) : s.TakesTransmit := by
  rcases hi with ⟨value, len, rfl⟩ | ⟨packed, count, rfl⟩
  · exact .inl ⟨value, len, h⟩
  · exact .inr ⟨packed, count, h⟩

theorem State.TakesCommand.setsProtocol (h : s.TakesCommand i) (mem : .proto ∈ footprint i ∨ .plen ∈ footprint i) :
    ∃ id, s.TakesCommand (.setProtocol id) ∨ ∃ us, s.TakesCommand (.setProtocolPl id us) := by
  rcases proto_plen_mem_footprint mem with ⟨id, rfl⟩ | ⟨id, us, rfl⟩
  · exact ⟨id, .inl h⟩
  · exact ⟨id, .inr ⟨us, h⟩⟩

theorem State.TakesEdge.not_takesCommand (he : s.TakesEdge) : ¬s.TakesCommand i := by
  obtain ⟨-, τ, rest, hin⟩ := he
  rintro ⟨-, w, rest', hin', -⟩
  simp [hin] at hin'

theorem State.TakesEdge.not_takesSequencer (he : s.TakesEdge) : ¬s.TakesSequencer := by
  obtain ⟨-, τ, rest, hin⟩ := he
  exact fun h => h.2 τ rest hin

/-- The classifier and the result fields are in the footprint of no command (spec/10_state.md R48). -/
theorem WrittenBy.takesEdge (h : WrittenBy s t r) (hr : r = .cls ∨ r = .result) : s.TakesEdge := by
  cases h with
  | edge takes => exact takes
  | command i _ takes mem =>
    have hformat := takes.format
    rcases hr with rfl | rfl <;> cases i <;> simp_all [footprint, Instr.format]
  | pulse _ mem => rcases hr with rfl | rfl <;> simp at mem
  | burstEnd _ mem => rcases hr with rfl | rfl <;> simp at mem

/-- `AVAIL` is set by a delivered edge only (R41). -/
theorem WrittenBy.avail_set (h : WrittenBy s t .avail) (ht : t.latch.avail = true) : s.TakesEdge := by
  cases h with
  | edge takes => exact takes
  | command i _ takes mem ran =>
    obtain rfl := avail_mem_footprint takes.format mem
    cases ran
    simp at ht
  | pulse _ mem => simp at mem
  | burstEnd _ mem => simp at mem

/-- `AVAIL` is cleared by RX_CLEAR only (R41). -/
theorem WrittenBy.avail_cleared (h : WrittenBy s t .avail) (hs : s.latch.avail = true) (ht : t.latch.avail = false) :
    s.TakesCommand .rxClear := by
  cases h with
  | edge _ _ sets => simp [sets hs] at ht
  | command i _ takes mem =>
    have hi := avail_mem_footprint takes.format mem
    exact hi ▸ takes
  | pulse _ mem => simp at mem
  | burstEnd _ mem => simp at mem

/-- The configuration registers are written by commands only. -/
theorem WrittenBy.takesCommand (h : WrittenBy s t r)
    (hr : r ∉ [Register.rxCtl, .cls, .result, .avail, .seq, .txLevel]) : ∃ i, s.TakesCommand i ∧ r ∈ footprint i := by
  cases h with
  | command i _ takes mem => exact ⟨i, takes, mem⟩
  | edge _ mem => simp_all
  | pulse _ mem => simp_all
  | burstEnd _ mem => simp_all

theorem WrittenBy.rxCtl_writer (h : WrittenBy s t .rxCtl) :
    (∃ pin, s.TakesCommand (.rxEnable pin)) ∨ s.TakesCommand .rxDisable ∨ s.TakesTransmit ∨ s.TakesBurstEnd := by
  cases h with
  | edge _ mem => simp at mem
  | command i _ takes mem =>
    rcases rxCtl_mem_footprint mem with ⟨pin, rfl⟩ | rfl | htx
    · exact .inl ⟨pin, takes⟩
    · exact .inr (.inl takes)
    · exact .inr (.inr (.inl (takes.takesTransmit htx)))
  | pulse _ mem => simp at mem
  | burstEnd takes => exact .inr (.inr (.inr takes))

theorem WrittenBy.seq_writer (h : WrittenBy s t .seq) : s.TakesTransmit ∨ s.TakesPulse ∨ s.TakesBurstEnd := by
  cases h with
  | edge _ mem => simp at mem
  | command i _ takes mem => exact .inl (takes.takesTransmit (seq_mem_footprint mem))
  | pulse takes => exact .inr (.inl takes)
  | burstEnd takes => exact .inr (.inr takes)

theorem WrittenBy.txLevel_writer (h : WrittenBy s t .txLevel) : s.TakesPulse := by
  cases h with
  | edge _ mem => simp at mem
  | command i _ takes mem =>
    obtain ⟨op, rfl⟩ := txLevel_mem_footprint mem
    have hformat := takes.format
    cases op <;> simp [EncOp.instr, Instr.format] at hformat
  | pulse takes => exact takes
  | burstEnd _ mem => simp at mem

/-- A delivered edge writes the receiver only (R48, spec/41_transmission_controller.md R151). -/
theorem State.TakesEdge.keeps (he : s.TakesEdge) (hx : s.External) (h : step s = .next t)
    (hr : r ∉ [Register.cls, .result, .avail]) : s.Keeps t r := by
  by_contra hk
  cases step_writers hx h hk with
  | edge _ mem => exact hr mem
  | command i _ takes => exact he.not_takesCommand takes
  | pulse takes => exact he.not_takesSequencer takes.1
  | burstEnd takes => exact he.not_takesSequencer takes.1

/-- Settles O56: `step_writers` names the writer of a register that changed, and the footprints say which command it is. -/
theorem eachRegisterHasItsWriters : Obligations.EachRegisterHasItsWriters := by
  intro s t hx h
  have writer (r : Register) (hr : ¬s.Keeps t r) : WrittenBy s t r := step_writers hx h hr
  refine ⟨fun hr => (writer .cls hr).takesEdge (.inl rfl), fun hr => (writer .result hr).takesEdge (.inr rfl),
    fun hs ht => (writer .avail (by simp [State.Keeps, hs, ht])).avail_set ht,
    fun hs ht => (writer .avail (by simp [State.Keeps, hs, ht])).avail_cleared hs ht, ?txPin, ?proto, ?plen, ?repeatCount,
    ?rxTol, fun hr => (writer .rxCtl hr).rxCtl_writer, fun hr => (writer .seq hr).seq_writer,
    fun hr => (writer .txLevel hr).txLevel_writer, ?edge⟩
  case edge =>
    exact fun he => ⟨he.keeps (r := .txPin) hx h (by simp), he.keeps (r := .rxCtl) hx h (by simp),
      he.keeps (r := .seq) hx h (by simp), he.keeps (r := .txLevel) hx h (by simp)⟩
  case txPin =>
    intro hr
    obtain ⟨i, takes, mem⟩ := (writer .txPin hr).takesCommand (by simp)
    obtain ⟨pin, rfl⟩ := txPin_mem_footprint mem
    exact ⟨pin, takes⟩
  case proto =>
    intro hr
    obtain ⟨i, takes, mem⟩ := (writer .proto hr).takesCommand (by simp)
    exact takes.setsProtocol (.inl mem)
  case plen =>
    intro hr
    obtain ⟨i, takes, mem⟩ := (writer .plen hr).takesCommand (by simp)
    exact takes.setsProtocol (.inr mem)
  case repeatCount =>
    intro hr
    obtain ⟨i, takes, mem⟩ := (writer .repeatCount hr).takesCommand (by simp)
    obtain ⟨count, rfl⟩ := repeatCount_mem_footprint mem
    exact ⟨count, takes⟩
  case rxTol =>
    intro hr
    obtain ⟨i, takes, mem⟩ := (writer .rxTol hr).takesCommand (by simp)
    obtain ⟨percent, rfl⟩ := rxTol_mem_footprint mem
    exact ⟨percent, takes⟩

/-! ### The presets -/

theorem preset_eq_none {id : BitVec 16} (h₁ : id ≠ 1) (h₂ : id ≠ 2) : Config.preset id = none := by
  rw [Config.preset, if_neg h₁, if_neg h₂]

/-- Settles O3: the two rows of the table, no other row, and the record in force. -/
theorem presetsGiveEffectiveParameters : Obligations.PresetsGiveEffectiveParameters :=
  ⟨rfl, rfl, fun _ => preset_eq_none, fun _ => rfl⟩

end Sys2Proof.Machine
end

section
/-! PROOFS. The step that runs an operation (spec/20_memory.md R77), and the result latch: what one step of the two agents
can do to it, and that it holds one whole COMMIT at a time (R74, R78). -/

namespace Sys2Proof.Machine

open Sys2Proof

variable {s t : State} {i : Instr}

/-! ### The step that runs an operation -/

/-- A code that stands first is taken: an edge at any time, any other code outside a burst (spec/20_memory.md R77,
spec/41_transmission_controller.md R141). -/
theorem fetch_eq_takeCode {c : Code} {rest : List Input} (hin : s.inputs = .code c :: rest)
    (free : s.seq.busy = false ∨ c.format = .edge) : s.fetch = s.takeCode c rest := by
  cases c with
  | host w =>
    have idle := free.resolve_right nofun
    simp [State.fetch, hin, idle]
  | micro u =>
    have idle := free.resolve_right nofun
    simp [State.fetch, hin, idle]
  | edge τ => simp [State.fetch, hin]

/-- A code that decodes runs its operation (spec/30_encoding.md R94). -/
theorem takeCode_eq_run {c : Code} (decoded : decodeCode c = .ok i) (s : State) (rest : List Input) :
    s.takeCode c rest = .run i (s.withInputs rest) := by
  simp [State.takeCode, decoded]

/-- Settles O10: the code is fetched, and what it decodes to runs on the state with it taken. -/
theorem stepRunsDecodedCode : Obligations.StepRunsDecodedCode := by
  intro s c rest i hin free decoded
  have hfetch : s.fetch = .run i (s.withInputs rest) := by
    rw [fetch_eq_takeCode hin free, takeCode_eq_run decoded]
  rw [step, hfetch]
  rfl

/-! ### What a step can do to the latch -/

/-- The three things a step of the two agents can do to a latch: nothing, RX_CLEAR, or the COMMIT of an accepted closed
frame; `stepTo_latch` says that there is no other. -/
inductive Latch.StepsTo (l : Latch) (rxTol : BitVec 8) (frame : List Micros) : Latch → Prop
  | kept : l.StepsTo rxTol frame l
  | cleared : l.StepsTo rxTol frame l.clearAvail
  | committed (a : Accepted) (accepted : decodeFrame rxTol frame = some a)
      (gate : Config.minIntervalsCommit < frame.length) : l.StepsTo rxTol frame (l.publish a)

theorem decodeClosed_latch (s : State) (frame : List Micros) :
    s.latch.StepsTo s.rxTol frame (s.decodeClosed frame).latch := by
  rcases decodeClosed_cases s frame with ⟨e, he⟩ | ⟨a, accepted, gate, he⟩ <;> rw [he]
  · exact .kept
  · exact .committed a accepted gate

/-- Of the classifier's branches only the handoff reaches the latch (spec/42_edge_classifier.md R176). -/
theorem classify_latch (s : State) (d : Micros) :
    s.latch.StepsTo s.rxTol s.cls.closedFrame (s.classify d).latch := by
  rcases classify_cases s d with ⟨-, -, -, h⟩ | ⟨-, -, h⟩ | ⟨-, -, h⟩ | ⟨-, -, -, h⟩ | ⟨-, -, -, h⟩ <;> rw [h]
  · exact decodeClosed_latch { s with cls := s.cls.countSync } s.cls.closedFrame
  all_goals exact .kept

theorem deliverEdge_latch (s : State) (τ : Micros) :
    s.latch.StepsTo s.rxTol s.cls.closedFrame (s.deliverEdge τ).latch := by
  rcases deliverEdge_cases s τ with ⟨-, h⟩ | ⟨-, h⟩ <;> rw [h]
  · exact .kept
  · exact classify_latch { s.callPort (.nowMicroseconds τ) with cls := s.cls.stamp τ } _

/-- `AVAIL` and the result fields are the whole latch (spec/10_state.md R41 to R43). -/
theorem latch_eq_of_keeps (result : s.Keeps t .result) (avail : s.Keeps t .avail) : t.latch = s.latch := by
  simp only [State.Keeps] at result avail
  calc t.latch = { { t.latch with avail := false } with avail := t.latch.avail } := rfl
    _ = { { s.latch with avail := false } with avail := s.latch.avail } := by rw [result, avail]
    _ = s.latch := rfl

/-- No host command writes the result fields (R48). -/
theorem result_notMem_footprint (hi : i.format = .host) : .result ∉ footprint i := by
  cases i <;> simp_all [footprint, Instr.format]

/-- Of the host commands only RX_CLEAR writes the latch (spec/44_result_store.md R233). -/
theorem exec_host_latch (hi : i.format = .host) (h : exec i s = .next t) (rxTol : BitVec 8) (frame : List Micros) :
    s.latch.StepsTo rxTol frame t.latch := by
  by_cases clears : .avail ∈ footprint i
  · obtain rfl := avail_mem_footprint hi clears
    cases h
    exact .cleared
  · have kept := exec_footprint h
    rw [latch_eq_of_keeps (kept .result (result_notMem_footprint hi)) (kept .avail clears)]
    exact .kept

/-- On the inputs of the two agents a step leaves the latch, clears `AVAIL`, or commits the closed frame. -/
theorem stepTo_latch (hx : s.External) (h : StepTo s t) :
    s.latch.StepsTo s.rxTol s.cls.closedFrame t.latch := by
  cases h with
  | wait => exact .kept
  | pulse => exact .kept
  | burstEnd rest =>
    rw [endBurst_eq]
    exact .kept
  | reserved => exact .kept
  | operation c rest i _ taken _ decoded ran =>
    cases c with
    | host w => exact exec_host_latch (s := s.withInputs rest) (decodeCode_format decoded) ran _ _
    | micro u => simp [State.External, taken, Input.external] at hx
    | edge τ =>
      cases decoded
      cases ran
      exact deliverEdge_latch (s.withInputs rest) τ

/-! ### What the latch holds -/

theorem Latch.unwritten.clearAvail {l : Latch} (h : l.unwritten) : l.clearAvail.unwritten := by
  obtain ⟨-, fields⟩ := h
  exact ⟨rfl, fields⟩

/-- `AVAIL` is no part of the result that the latch holds (R233). -/
theorem Latch.published.clearAvail {l : Latch} (h : l.published) : l.clearAvail.published := h

/-- The snapshot after COMMIT is the frame, when it fits the array and its length field (R230, R43). -/
theorem publish_snapshot {l : Latch} {a : Accepted} (fits : a.frame.length ≤ l.raw.length) (short : a.frame.length < 256) :
    (l.publish a).snapshot = a.frame := by
  rw [Latch.snapshot, Latch.publish_raw, Latch.publish_rawLen, rawLenField_toNat short, overlay_take _ _ fits]

/-- COMMIT of an accepted frame leaves the whole decode of its own snapshot (R230, R235). -/
theorem publish_published {l : Latch} {rxTol : BitVec 8} {frame : List Micros} {a : Accepted}
    (accepted : decodeFrame rxTol frame = some a) (gate : Config.minIntervalsCommit < frame.length)
    (fits : frame.length ≤ l.raw.length) (short : frame.length < 256) : (l.publish a).published := by
  obtain ⟨-, rfl, hbits, -⟩ := decodeFrame_some accepted
  have hrawLen : (l.publish a).rawLen.toNat = a.frame.length := rawLenField_toNat short
  have hbitLen : (l.publish a).bitLen.toNat = a.bitLen := bitLenField_toNat (by omega)
  refine ⟨rfl, hrawLen ▸ gate, rxTol, ?_⟩
  rw [publish_snapshot fits short, hbitLen]
  exact accepted

/-- A closed frame is shorter than the array, and at a `CAP` of at most 256 its length fits 8 bits (R36, R43). -/
theorem closedFrame_fits (hs : s.IndexInv) (hcap : s.cap ≤ 256) :
    s.cls.closedFrame.length ≤ s.latch.raw.length ∧ s.cls.closedFrame.length < 256 := by
  have hlen := closedFrame_length_le s.cls
  have hcc := hs.cc_le
  have hraw := hs.raw_length
  omega

/-- Settles O54: of the three things a step does to the latch, the first two keep the result and COMMIT writes a whole
one. -/
theorem stepKeepsLatchInv : Obligations.StepKeepsLatchInv := by
  intro s t hlatch hindex hcap hx h
  have hstep := stepTo_latch hx (stepTo_of_step h)
  unfold State.LatchInv
  generalize t.latch = l at hstep ⊢
  cases hstep with
  | kept => exact hlatch
  | cleared => exact hlatch.imp Latch.unwritten.clearAvail Latch.published.clearAvail
  | committed a accepted gate =>
    obtain ⟨fits, short⟩ := closedFrame_fits hindex hcap
    exact .inr (publish_published accepted gate fits short)

end Sys2Proof.Machine
end

section
/-! PROOFS. The encoding (spec/30_encoding.md): the fields of a host word, the rows of the host table by the operand bits
that they leave free, and what the decoder reads from a word. -/

namespace Sys2Proof

/-! ### The fields of a host word (R91) -/

@[simp] theorem opcField_hostWord (opc : BitVec 8) (b : BitVec 16) (a : BitVec 32) :
    opcField (hostWord opc b a) = opc := by
  rw [opcField, hostWord, BitVec.extractLsb'_append_eq_of_le (by decide), BitVec.extractLsb'_append_eq_of_le (by decide)]
  exact BitVec.extractLsb'_append_eq_left

@[simp] theorem rsvField_hostWord (opc : BitVec 8) (b : BitVec 16) (a : BitVec 32) : rsvField (hostWord opc b a) = 0 := by
  rw [rsvField, hostWord, BitVec.extractLsb'_append_eq_of_le (by decide), BitVec.extractLsb'_append_eq_of_le (by decide)]
  exact BitVec.extractLsb'_append_eq_right

@[simp] theorem bField_hostWord (opc : BitVec 8) (b : BitVec 16) (a : BitVec 32) : bField (hostWord opc b a) = b := by
  rw [bField, hostWord, BitVec.extractLsb'_append_eq_of_le (by decide)]
  exact BitVec.extractLsb'_append_eq_right

@[simp] theorem aField_hostWord (opc : BitVec 8) (b : BitVec 16) (a : BitVec 32) : aField (hostWord opc b a) = a :=
  BitVec.extractLsb'_append_eq_right

/-- The four fields, side by side, are the whole word. -/
theorem append_fields (w : HostWord) : (opcField w ++ rsvField w ++ bField w ++ aField w : BitVec 64) = w := by
  have hopcRsv : opcField w ++ rsvField w = w.extractLsb' 48 (8 + 8) :=
    BitVec.extractLsb'_append_extractLsb'_eq_extractLsb' rfl
  have hb : w.extractLsb' 48 (8 + 8) ++ bField w = w.extractLsb' 32 (8 + 8 + 16) :=
    BitVec.extractLsb'_append_extractLsb'_eq_extractLsb' rfl
  rw [hopcRsv, hb]
  exact BitVec.extractLsb'_append_extractLsb'

/-- A word is given by its fields. -/
theorem fields_ext_iff {w w' : HostWord} :
    w = w' ↔ opcField w = opcField w' ∧ rsvField w = rsvField w' ∧ bField w = bField w' ∧ aField w = aField w' := by
  constructor
  · rintro rfl
    exact ⟨rfl, rfl, rfl, rfl⟩
  · rintro ⟨hopc, hrsv, hb, ha⟩
    rw [← append_fields w, ← append_fields w', hopc, hrsv, hb, ha]

@[simp] theorem opcField_and (w w' : HostWord) : opcField (w &&& w') = opcField w &&& opcField w' :=
  BitVec.extractLsb'_and

@[simp] theorem rsvField_and (w w' : HostWord) : rsvField (w &&& w') = rsvField w &&& rsvField w' :=
  BitVec.extractLsb'_and

@[simp] theorem bField_and (w w' : HostWord) : bField (w &&& w') = bField w &&& bField w' :=
  BitVec.extractLsb'_and

@[simp] theorem aField_and (w w' : HostWord) : aField (w &&& w') = aField w &&& aField w' :=
  BitVec.extractLsb'_and

theorem extractLsb'_not_of_le {n start len : Nat} (x : BitVec n) (h : start + len ≤ n) :
    (~~~x).extractLsb' start len = ~~~x.extractLsb' start len := by
  ext j hj
  have hlt : start + j < n := by omega
  simp [hlt]

@[simp] theorem opcField_not (w : HostWord) : opcField (~~~w) = ~~~opcField w := extractLsb'_not_of_le w (by decide)

@[simp] theorem rsvField_not (w : HostWord) : rsvField (~~~w) = ~~~rsvField w := extractLsb'_not_of_le w (by decide)

@[simp] theorem bField_not (w : HostWord) : bField (~~~w) = ~~~bField w := extractLsb'_not_of_le w (by decide)

@[simp] theorem aField_not (w : HostWord) : aField (~~~w) = ~~~aField w := extractLsb'_not_of_le w (by decide)

/-! ### The low bits of an operand field -/

section LowBits
variable {w : Nat} {x : BitVec w}

theorem toNat_lt_two_pow_zero_iff : x.toNat < 2 ^ 0 ↔ x = 0 := by
  rw [← BitVec.toNat_inj]
  simp

/-- A field fits its `n` low bits when its other `m` bits are 0. -/
theorem extractLsb'_eq_zero_iff_toNat_lt {n m : Nat} (h : n + m = w) : x.extractLsb' n m = 0 ↔ x.toNat < 2 ^ n := by
  have hx : x.toNat >>> n < 2 ^ m := by
    rw [Nat.shiftRight_eq_div_pow, Nat.div_lt_iff_lt_mul (by positivity), ← pow_add, Nat.add_comm, h]
    exact x.isLt
  rw [← BitVec.toNat_inj, BitVec.extractLsb'_toNat, Nat.mod_eq_of_lt hx, Nat.shiftRight_eq_div_pow]
  simp

theorem and_not_eq_zero_iff {m : BitVec w} : x &&& ~~~m = 0 ↔ x &&& m = x := by
  simp only [BitVec.eq_of_getElem_eq_iff, BitVec.getElem_and, BitVec.getElem_not, BitVec.ofNat_eq_ofNat,
    BitVec.getElem_zero]
  refine forall₂_congr fun j hj => ?_
  cases x[j] <;> cases m[j] <;> simp

/-- A field fits its `n` low bits when the mask of the other bits selects 0. -/
theorem and_not_lowMask_eq_zero_iff {n : Nat} (h : n ≤ w) :
    x &&& ~~~BitVec.ofNat w (2 ^ n - 1) = 0 ↔ x.toNat < 2 ^ n := by
  have hmask : (2 ^ n - 1) % 2 ^ w = 2 ^ n - 1 :=
    Nat.mod_eq_of_lt (Nat.sub_one_lt_of_le (by positivity) (Nat.pow_le_pow_right (by decide) h))
  rw [and_not_eq_zero_iff, ← BitVec.toNat_inj, BitVec.toNat_and, BitVec.toNat_ofNat, hmask,
    Nat.and_two_pow_sub_one_eq_mod, Nat.mod_eq_iff_lt (by positivity)]

theorem toNat_extractLsb'_low {n : Nat} (h : x.toNat < 2 ^ n) : (x.extractLsb' 0 n).toNat = x.toNat := by
  rw [BitVec.extractLsb'_toNat, Nat.shiftRight_zero, Nat.mod_eq_of_lt h]

theorem ofNat_toNat_extractLsb'_low {n : Nat} (h : x.toNat < 2 ^ n) : BitVec.ofNat w (x.extractLsb' 0 n).toNat = x := by
  rw [toNat_extractLsb'_low h, BitVec.ofNat_toNat, BitVec.setWidth_eq]

theorem setWidth_extractLsb'_low {n : Nat} (h : x.toNat < 2 ^ n) : (x.extractLsb' 0 n).setWidth w = x := by
  rw [← BitVec.ofNat_toNat, ofNat_toNat_extractLsb'_low h]

end LowBits

/-! ### The rows of the host table (R93) -/

/-- The row of an opcode whose operands are the low `bBits` of `B` and the low `aBits` of `A`; `hostTable_eq` says that
the table is made of such rows. -/
def operandRow (mnemonic : String) (opc : BitVec 8) (bBits aBits : Nat) : HostRow :=
  { mnemonic := mnemonic
    matchBits := hostWord opc 0 0
    mask := ~~~hostWord 0 (BitVec.ofNat 16 (2 ^ bBits - 1)) (BitVec.ofNat 32 (2 ^ aBits - 1)) }

theorem hostTable_eq : hostTable =
    [ operandRow "SET_TX_PIN" 0x01 0 32,
      operandRow "SET_PROTOCOL" 0x02 16 0,
      operandRow "SET_PROTOCOL_PL" 0x03 16 32,
      operandRow "SET_REPEAT" 0x04 0 32,
      operandRow "SET_RX_TOLERANCE" 0x05 0 8,
      operandRow "TX_CODE" 0x10 6 32,
      operandRow "TX_TRISTATE" 0x11 5 32,
      operandRow "RX_ENABLE" 0x20 0 32,
      operandRow "RX_DISABLE" 0x21 0 0,
      operandRow "RX_AVAILABLE" 0x22 0 0,
      operandRow "RX_TAKE" 0x23 0 0,
      operandRow "RX_CLEAR" 0x24 0 0 ] := by
  decide

/-- A word selects a row when it has the row's opcode and no bit outside the row's operands. -/
theorem selectedBy_operandRow (mnemonic : String) (opc : BitVec 8) {bBits aBits : Nat} (hb : bBits ≤ 16) (ha : aBits ≤ 32)
    (w : HostWord) : (operandRow mnemonic opc bBits aBits).selectedBy w = true ↔
      opcField w = opc ∧ rsvField w = 0 ∧ (bField w).toNat < 2 ^ bBits ∧ (aField w).toNat < 2 ^ aBits := by
  rw [HostRow.selectedBy, beq_iff_eq, fields_ext_iff, ← and_not_lowMask_eq_zero_iff hb,
    ← and_not_lowMask_eq_zero_iff ha]
  simp [operandRow, -BitVec.reduceNot, -BitVec.reduceAllOnes]

/-- Different rows have different opcodes (R94). -/
theorem hostRow_eq_of_opcField_eq {r r' : HostRow} (hr : r ∈ hostTable) (hr' : r' ∈ hostTable)
    (h : opcField r.matchBits = opcField r'.matchBits) : r = r' :=
  List.inj_on_of_nodup_map (f := fun r : HostRow => opcField r.matchBits) (by decide) hr hr' h

/-- Every row's mask covers the opcode. -/
theorem opcField_mask {r : HostRow} (hr : r ∈ hostTable) : opcField r.mask = BitVec.allOnes 8 := by
  revert r
  decide

/-- A word that selects a row has its opcode. -/
theorem opcField_of_selectedBy {r : HostRow} {w : HostWord} (hr : r ∈ hostTable) (h : r.selectedBy w = true) :
    opcField w = opcField r.matchBits := by
  rw [← beq_iff_eq.mp h, opcField_and, opcField_mask hr, BitVec.and_allOnes]

/-! ### What the decoder reads from a word -/

/-- The decoder reads `w` by the row `r`: it gives `i` when `w` selects the row, whose code is then `w`. -/
structure HostReading (w : HostWord) (r : HostRow) (i : Instr) : Prop where
  mem : r ∈ hostTable
  mnemonic : r.mnemonic = i.mnemonic
  opcode : opcField w = opcField r.matchBits
  decodes : decodeHost w = requireZero (r.selectedBy w) (opcField w) i
  wellFormed : i.wellFormed = true
  code : r.selectedBy w = true → encode i = .host w

/-- A reading by the row of an opcode and its operand bits: the decoder's check `zero` says that the operands fit, and
the code of `i` is made of the operand fields that fit. -/
theorem HostReading.of_operandRow {w : HostWord} {zero : Bool} {i : Instr} (mnemonic : String) (opc : BitVec 8)
    (bBits aBits : Nat) (mem : operandRow mnemonic opc bBits aBits ∈ hostTable) (mnemonic_eq : mnemonic = i.mnemonic)
    (opcode : (opcField w).toNat = opc.toNat) (decodes : decodeHost w = requireZero zero (opcField w) i)
    (fits : zero = true ↔ rsvField w = 0 ∧ (bField w).toNat < 2 ^ bBits ∧ (aField w).toNat < 2 ^ aBits)
    (wellFormed : i.wellFormed = true)
    (code : (bField w).toNat < 2 ^ bBits → (aField w).toNat < 2 ^ aBits →
      encode i = .host (hostWord opc (bField w) (aField w)))
    (hb : bBits ≤ 16 := by decide) (ha : aBits ≤ 32 := by decide) :
    HostReading w (operandRow mnemonic opc bBits aBits) i := by
  have hopc : opcField w = opc := BitVec.eq_of_toNat_eq opcode
  have selected := selectedBy_operandRow mnemonic opc hb ha w
  have hzero : zero = (operandRow mnemonic opc bBits aBits).selectedBy w := by
    rw [Bool.eq_iff_iff, fits, selected]
    exact (and_iff_right hopc).symm
  refine ⟨mem, mnemonic_eq, by simp [operandRow, hopc], hzero ▸ decodes, wellFormed, fun h => ?_⟩
  obtain ⟨-, hrsv, hbw, haw⟩ := selected.mp h
  rw [code hbw haw, Code.host.injEq, fields_ext_iff]
  simp [hopc, hrsv]

/-- A row of which only `A` is an operand. -/
theorem HostReading.of_operandA {w : HostWord} {i : Instr} (mnemonic : String) (opc : BitVec 8)
    (mem : operandRow mnemonic opc 0 32 ∈ hostTable) (mnemonic_eq : mnemonic = i.mnemonic)
    (opcode : (opcField w).toNat = opc.toNat)
    (decodes : decodeHost w = requireZero (rsvField w == 0 && bField w == 0) (opcField w) i)
    (wellFormed : i.wellFormed = true) (code : encode i = .host (hostWord opc 0 (aField w))) :
    HostReading w (operandRow mnemonic opc 0 32) i := by
  have ha : (aField w).toNat < 2 ^ 32 := (aField w).isLt
  refine .of_operandRow mnemonic opc 0 32 mem mnemonic_eq opcode decodes ?_ wellFormed fun hb _ => ?_
  · simp only [Bool.and_eq_true, beq_iff_eq, toNat_lt_two_pow_zero_iff, ha, and_true]
  · rw [toNat_lt_two_pow_zero_iff.mp hb, code]

/-- A row of no operand. -/
theorem HostReading.of_noOperand {w : HostWord} {i : Instr} (mnemonic : String) (opc : BitVec 8)
    (mem : operandRow mnemonic opc 0 0 ∈ hostTable) (mnemonic_eq : mnemonic = i.mnemonic)
    (opcode : (opcField w).toNat = opc.toNat)
    (decodes : decodeHost w = requireZero (rsvField w == 0 && bField w == 0 && aField w == 0) (opcField w) i)
    (wellFormed : i.wellFormed = true) (code : encode i = .host (hostWord opc 0 0)) :
    HostReading w (operandRow mnemonic opc 0 0) i := by
  refine .of_operandRow mnemonic opc 0 0 mem mnemonic_eq opcode decodes ?_ wellFormed fun hb ha => ?_
  · simp only [Bool.and_eq_true, beq_iff_eq, toNat_lt_two_pow_zero_iff, and_assoc]
  · rw [toNat_lt_two_pow_zero_iff.mp hb, toNat_lt_two_pow_zero_iff.mp ha, code]

/-- The opcodes of R93. -/
theorem opcode_mem {r : HostRow} (hr : r ∈ hostTable) :
    (opcField r.matchBits).toNat ∈ [0x01, 0x02, 0x03, 0x04, 0x05, 0x10, 0x11, 0x20, 0x21, 0x22, 0x23, 0x24] := by
  revert r
  decide

/-- A host word is read by the row of its opcode, or its opcode is in no row (R94). -/
theorem hostReading_or_unassigned (w : HostWord) :
    (∃ r i, HostReading w r i) ∨
    ((∀ r ∈ hostTable, opcField w ≠ opcField r.matchBits) ∧ decodeHost w = .error (.hostOpcode (opcField w))) := by
  have hd : decodeHost w = decodeHost w := rfl
  nth_rewrite 2 [decodeHost] at hd
  have hb : (bField w).toNat < 2 ^ 16 := (bField w).isLt
  have ha : (aField w).toNat < 2 ^ 32 := (aField w).isLt
  split at hd
  case h_1 h =>
    exact .inl ⟨_, _, .of_operandA "SET_TX_PIN" 0x01 (by simp [hostTable_eq]) rfl h hd rfl rfl⟩
  case h_2 h =>
    exact .inl ⟨_, _, .of_operandRow "SET_PROTOCOL" 0x02 16 0 (by simp [hostTable_eq]) rfl h hd
      (by simp only [Bool.and_eq_true, beq_iff_eq, toNat_lt_two_pow_zero_iff, hb, true_and])
      rfl (fun _ ha => by rw [encode, toNat_lt_two_pow_zero_iff.mp ha])⟩
  case h_3 h =>
    exact .inl ⟨_, _, .of_operandRow "SET_PROTOCOL_PL" 0x03 16 32 (by simp [hostTable_eq]) rfl h hd
      (by simp only [beq_iff_eq, hb, ha, and_true]) rfl (fun _ _ => rfl)⟩
  case h_4 h =>
    exact .inl ⟨_, _, .of_operandA "SET_REPEAT" 0x04 (by simp [hostTable_eq]) rfl h hd rfl rfl⟩
  case h_5 h =>
    exact .inl ⟨_, _, .of_operandRow "SET_RX_TOLERANCE" 0x05 0 8 (by simp [hostTable_eq]) rfl h hd
      (by simp only [Bool.and_eq_true, beq_iff_eq, toNat_lt_two_pow_zero_iff, extractLsb'_eq_zero_iff_toNat_lt,
        and_assoc])
      rfl (fun hb ha => by rw [encode, toNat_lt_two_pow_zero_iff.mp hb, setWidth_extractLsb'_low ha])⟩
  case h_6 h =>
    exact .inl ⟨_, _, .of_operandRow "TX_CODE" 0x10 6 32 (by simp [hostTable_eq]) rfl h hd
      (by simp only [Bool.and_eq_true, beq_iff_eq, extractLsb'_eq_zero_iff_toNat_lt, ha, and_true])
      (decide_eq_true (BitVec.isLt _)) (fun hb _ => by rw [encode, ofNat_toNat_extractLsb'_low hb])⟩
  case h_7 h =>
    exact .inl ⟨_, _, .of_operandRow "TX_TRISTATE" 0x11 5 32 (by simp [hostTable_eq]) rfl h hd
      (by simp only [Bool.and_eq_true, beq_iff_eq, extractLsb'_eq_zero_iff_toNat_lt, ha, and_true])
      (decide_eq_true (BitVec.isLt _)) (fun hb _ => by rw [encode, ofNat_toNat_extractLsb'_low hb])⟩
  case h_8 h =>
    exact .inl ⟨_, _, .of_operandA "RX_ENABLE" 0x20 (by simp [hostTable_eq]) rfl h hd rfl rfl⟩
  case h_9 h =>
    exact .inl ⟨_, _, .of_noOperand "RX_DISABLE" 0x21 (by simp [hostTable_eq]) rfl h hd rfl rfl⟩
  case h_10 h =>
    exact .inl ⟨_, _, .of_noOperand "RX_AVAILABLE" 0x22 (by simp [hostTable_eq]) rfl h hd rfl rfl⟩
  case h_11 h =>
    exact .inl ⟨_, _, .of_noOperand "RX_TAKE" 0x23 (by simp [hostTable_eq]) rfl h hd rfl rfl⟩
  case h_12 h =>
    exact .inl ⟨_, _, .of_noOperand "RX_CLEAR" 0x24 (by simp [hostTable_eq]) rfl h hd rfl rfl⟩
  case h_13 =>
    refine .inr ⟨fun r hr heq => ?_, hd⟩
    have hmem := opcode_mem hr
    simp only [← heq, List.mem_cons, List.not_mem_nil, or_false] at hmem
    grind

/-- A host word decodes to `i` when it selects the row by which it is read. -/
theorem decodeHost_ok {w : HostWord} {i : Instr} (h : decodeHost w = .ok i) :
    ∃ r, HostReading w r i ∧ r.selectedBy w = true := by
  rcases hostReading_or_unassigned w with ⟨r, j, reading⟩ | ⟨-, hd⟩
  · have hd := reading.decodes.symm.trans h
    obtain rfl := Machine.requireZero_ok hd
    cases selected : r.selectedBy w with
    | true => exact ⟨r, reading, selected⟩
    | false => simp [requireZero, selected] at hd
  · simp [hd] at h

/-- A word that selects a row decodes (R95). -/
theorem decodeHost_of_selectedBy {w : HostWord} {r : HostRow} (hr : r ∈ hostTable) (h : r.selectedBy w = true) :
    ∃ i, decodeHost w = .ok i := by
  have hopc := opcField_of_selectedBy hr h
  rcases hostReading_or_unassigned w with ⟨r', i, reading⟩ | ⟨unassigned, -⟩
  · obtain rfl := hostRow_eq_of_opcField_eq hr reading.mem (hopc.symm.trans reading.opcode)
    exact ⟨i, by simp [reading.decodes, requireZero, h]⟩
  · exact absurd hopc (unassigned r hr)

/-- Settles O6: the row by which a word is read is the one row that can select it. -/
theorem hostDecoderIsMaskTable : Obligations.HostDecoderIsMaskTable := by
  intro w
  refine ⟨fun i h => ?_, fun e h r hr => ?_, fun r hr r' hr' h h' => ?_⟩
  · obtain ⟨r, reading, selected⟩ := decodeHost_ok h
    exact ⟨r, reading.mem, selected, reading.mnemonic⟩
  · by_contra selected
    obtain ⟨i, hi⟩ := decodeHost_of_selectedBy hr (Bool.not_eq_false _ ▸ selected)
    simp [hi] at h
  · exact hostRow_eq_of_opcField_eq hr hr' ((opcField_of_selectedBy hr h).symm.trans (opcField_of_selectedBy hr' h'))

/-! ### Decoding and encoding are inverse -/

/-- A code that decodes to a micro-operation is that operation's code (R101). -/
theorem encode_of_decodeMicro {u : MicroCode} {i : Instr} (h : decodeMicro u = .ok i) :
    encode i = .micro u ∧ i.wellFormed = true := by
  unfold decodeMicro at h
  split at h <;> cases h
  all_goals exact ⟨congrArg Code.micro (BitVec.eq_of_toNat_eq (Eq.symm ‹_›)), rfl⟩

/-- Settles O5: a host word is the code of its row's operation, a micro-operation code by the table of R101. -/
theorem encodeOfDecodeIsIdentity : Obligations.EncodeOfDecodeIsIdentity := by
  intro c i h
  cases c with
  | host w =>
    obtain ⟨r, reading, selected⟩ := decodeHost_ok h
    exact ⟨reading.code selected, reading.wellFormed⟩
  | micro u => exact encode_of_decodeMicro h
  | edge t =>
    cases h
    exact ⟨rfl, rfl⟩

/-- The length field of a transmit command holds a length that fits its `n` bits (R97). -/
theorem lengthField_of_lt {n len : Nat} (hn : n ≤ 16) (h : len < 2 ^ n) :
    ((BitVec.ofNat 16 len).extractLsb' 0 n).toNat = len ∧ (BitVec.ofNat 16 len).extractLsb' n (16 - n) = 0 := by
  have hlen : (BitVec.ofNat 16 len).toNat = len :=
    Nat.mod_eq_of_lt (h.trans_le (Nat.pow_le_pow_right (by decide) hn))
  constructor
  · rw [toNat_extractLsb'_low (hlen.symm ▸ h), hlen]
  · rw [extractLsb'_eq_zero_iff_toNat_lt (by omega), hlen]
    exact h

/-- The tolerance stands alone in the low byte of `A` (R93). -/
theorem toleranceField (percent : BitVec 8) :
    (percent.setWidth 32).extractLsb' 0 8 = percent ∧ (percent.setWidth 32).extractLsb' 8 24 = 0 := by
  constructor
  · rw [BitVec.extractLsb'_setWidth_of_le (by decide), BitVec.extractLsb'_eq_self]
  · rw [extractLsb'_eq_zero_iff_toNat_lt rfl, BitVec.toNat_setWidth_of_le (by decide)]
    exact percent.isLt

/-- Settles O4: the fields of a host word are those it was made of, and the operand of each row fits its bits. -/
theorem decodeOfEncodeIsIdentity : Obligations.DecodeOfEncodeIsIdentity := by
  intro i hwf
  cases i with
  | setRxTolerance percent =>
    obtain ⟨hpercent, hrest⟩ := toleranceField percent
    simp [encode, decodeCode, decodeHost, requireZero, hpercent, hrest]
  | txCode value len =>
    obtain ⟨hlen, hrest⟩ := lengthField_of_lt (n := 6) (by decide) (of_decide_eq_true hwf)
    simp [encode, decodeCode, decodeHost, requireZero, hlen, hrest]
  | txTristate packed count =>
    obtain ⟨hcount, hrest⟩ := lengthField_of_lt (n := 5) (by decide) (of_decide_eq_true hwf)
    simp [encode, decodeCode, decodeHost, requireZero, hcount, hrest]
  | setTxPin | setProtocol | setProtocolPl | setRepeat | rxEnable | rxDisable | rxAvailable | rxTake | rxClear =>
    simp [encode, decodeCode, decodeHost, requireZero]
  | emitBit0 | emitBit1 | emitSync | emitSymZero | emitSymFloat | emitSym10 | emitSymOne | decode | commit => rfl
  | edge t => rfl

end Sys2Proof
end

section
/-! PROOFS. The assembler's forms (spec/30_encoding.md R98, R108, R110), the codes that decode to nothing (R94, R101), and
RX_READ_CLEAR with edges between its commands (R110, spec/70_reset_and_hazards.md R330). -/

namespace Sys2Proof.Machine

open Sys2Proof

variable {s t : State} {i : Instr}

/-- Settles O7: each word of R111 and each code of R101 is decoded. -/
theorem workedWordsDecodeAsSpec : Obligations.WorkedWordsDecodeAsSpec :=
  ⟨rfl, rfl, rfl, rfl, rfl, rfl, rfl, rfl, rfl, rfl⟩

/-! ### The packed symbol string (R98) -/

theorem packSymbols_append_singleton (s : List Symbol) (x : Symbol) :
    packSymbols (s ++ [x]) = packSymbols s <<< 2 ||| (symbolCode x).setWidth 32 := by
  rw [packSymbols, List.foldl_append]
  rfl

/-- The last symbol stands in the least significant pair. -/
theorem extractLsb'_zero_packSymbols (s : List Symbol) (x : Symbol) :
    (packSymbols (s ++ [x])).extractLsb' 0 2 = symbolCode x := by
  have hshift : (packSymbols s <<< 2).extractLsb' 0 2 = 0 := by
    ext j hj
    simp [hj]
  rw [packSymbols_append_singleton, BitVec.extractLsb'_or, hshift, BitVec.extractLsb'_setWidth_of_le (by decide),
    BitVec.extractLsb'_eq_self]
  exact BitVec.zero_or

/-- Each further symbol moves those before it up by one pair. -/
theorem extractLsb'_packSymbols_append (s : List Symbol) (x : Symbol) {p : Nat} (hp : p + 4 ≤ 32) :
    (packSymbols (s ++ [x])).extractLsb' (p + 2) 2 = (packSymbols s).extractLsb' p 2 := by
  have hshift : (packSymbols s <<< 2).extractLsb' (p + 2) 2 = (packSymbols s).extractLsb' p 2 := by
    ext j hj
    have hlt : p + 2 + j < 32 := by omega
    have hge : ¬p + 2 + j < 2 := by omega
    have hsub : p + 2 + j - 2 = p + j := by omega
    rw [BitVec.getElem_extractLsb', BitVec.getElem_extractLsb', BitVec.getLsbD_shiftLeft]
    simp only [hlt, hge, hsub, decide_true, decide_false, Bool.not_false, Bool.true_and]
  have hcode : (symbolCode x).extractLsb' (p + 2) 2 = 0 := by
    ext j hj
    simp
    exact BitVec.getLsbD_of_ge _ _ (by omega)
  rw [packSymbols_append_singleton, BitVec.extractLsb'_or, hshift, BitVec.extractLsb'_setWidth_of_le (by omega), hcode]
  exact BitVec.or_zero

/-- Settles O8, by induction on the string from its end: a new symbol takes the low pair and moves the others up. -/
theorem packedStringHoldsSymbolsInOrder : Obligations.PackedStringHoldsSymbolsInOrder := by
  intro s
  induction s using List.reverseRecOn with
  | nil => simp
  | append_singleton s y ih =>
    intro k x hlen hk
    rw [List.length_append, List.length_singleton] at *
    rcases Nat.lt_or_ge k s.length with hlt | hge
    · rw [List.getElem?_append_left hlt] at hk
      have hpos : 2 * (s.length + 1 - 1 - k) = 2 * (s.length - 1 - k) + 2 := by omega
      rw [symbolAt, hpos, extractLsb'_packSymbols_append s y (by omega)]
      exact ih k x (by omega) hk
    · rw [List.getElem?_append_right hge, List.getElem?_singleton] at hk
      split at hk <;> cases hk
      have hpos : 2 * (s.length + 1 - 1 - k) = 0 := by omega
      rw [symbolAt, hpos, extractLsb'_zero_packSymbols]

/-! ### The pseudo-operations (R108, R110) -/

/-- Settles O9: the assembler checks the string's length and the bit length, and expands what passes. -/
theorem pseudoOperationsExpandAsSpec : Obligations.PseudoOperationsExpandAsSpec := by
  refine ⟨fun s hpos hle => ?_, fun s hlen => ?_, fun pin => rfl, fun value len count hlen => ?_, fun id pulseUs => rfl⟩
  · exact if_pos (decide_eq_true ⟨hpos, hle⟩)
  · refine if_neg fun hwf => ?_
    obtain ⟨hpos, hle⟩ := of_decide_eq_true hwf
    omega
  · exact if_pos (decide_eq_true hlen)

/-! ### Codes that decode to nothing -/

/-- A host word that decodes to nothing is taken as reserved, whichever of the two reasons rejects it (R94, R95). -/
theorem takeCode_eq_reserved {w : HostWord} {e : Reject} (rejected : decodeHost w = .error e) (s : State)
    (rest : List Input) : s.takeCode (.host w) rest = .reserved (s.withInputs rest) := by
  rcases hostReading_or_unassigned w with ⟨r, i, reading⟩ | ⟨-, hd⟩
  · have hd := reading.decodes
    cases selected : r.selectedBy w <;> rw [selected] at hd
    · simp [State.takeCode, decodeCode, hd, requireZero]
    · simp [hd, requireZero] at rejected
  · simp [State.takeCode, decodeCode, hd]

/-- Settles O11: the word is fetched outside a burst and completes as a no-op. -/
theorem reservedCommandWordIsNoOp : Obligations.ReservedCommandWordIsNoOp := by
  intro s w rest e hin idle rejected
  have hfetch : s.fetch = .reserved (s.withInputs rest) := by
    rw [fetch_eq_takeCode hin (.inl idle), takeCode_eq_reserved rejected]
  rw [step, hfetch]
  rfl

/-- The reserved codes of R101 decode to nothing. -/
theorem decodeMicro_reserved {u : MicroCode} (h : u = 0b0011 ∨ 0b1010 ≤ u.toNat) :
    decodeMicro u = .error (.microCode u) := by
  rcases h with rfl | h
  · rfl
  · unfold decodeMicro
    split
    case h_10 => rfl
    all_goals omega

/-- Settles O60: the code is fetched outside a burst, and no row of R101 reads it. -/
theorem reservedMicroOpStops : Obligations.ReservedMicroOpStops := by
  intro s u rest hin idle reserved
  have hfetch : s.fetch = .badMicro u := by
    rw [fetch_eq_takeCode hin (.inl idle), State.takeCode, decodeCode, decodeMicro_reserved reserved]
  rw [step, hfetch]

/-! ### Runs of commands with edges that are lost between them (spec/42_edge_classifier.md R170) -/

theorem run_succ_of_step (h : step s = .next t) (n : Nat) : Sys2Proof.core.run (n + 1) s = Sys2Proof.core.run n t := by
  have hstep : Sys2Proof.core.step s = .next t := h
  simp only [Host.Core.run, hstep]

theorem step_lostEdge {τ : Micros} {rest : List Input} (hlive : s.rxCtl.live = false)
    (hin : s.inputs = .code (.edge τ) :: rest) : step s = .next (s.withInputs rest) :=
  calc step s = exec (.edge τ) (s.withInputs rest) := stepRunsDecodedCode s _ rest _ hin (.inr rfl) rfl
    _ = .next ((s.withInputs rest).deliverEdge τ) := rfl
    _ = .next (s.withInputs rest) := by rw [deliverEdge_lost (s := s.withInputs rest) τ hlive]

/-- While reception is not live, the edges that stand first are taken and nothing else happens. -/
theorem run_lostEdges {ts : List Micros} {rest : List Input} (hlive : s.rxCtl.live = false)
    (hin : s.inputs = edgeInputs ts ++ rest) (n : Nat) :
    Sys2Proof.core.run (n + ts.length) s = Sys2Proof.core.run n (s.withInputs rest) := by
  induction ts generalizing s with
  | nil =>
    obtain rfl : s.inputs = rest := hin
    rfl
  | cons τ ts ih =>
    rw [List.length_cons, ← Nat.add_assoc, run_succ_of_step (step_lostEdge hlive hin)]
    exact ih hlive rfl

/-- A command that leaves reception not live, and the edges that come before the next input. -/
theorem run_command_lostEdges {ts : List Micros} {rest : List Input} (wellFormed : i.wellFormed = true)
    (idle : s.seq.busy = false) (hin : s.inputs = .code (encode i) :: (edgeInputs ts ++ rest))
    (ran : ∀ inputs, exec i (s.withInputs inputs) = .next (t.withInputs inputs)) (hlive : t.rxCtl.live = false)
    (n : Nat) : Sys2Proof.core.run (n + ts.length + 1) s = Sys2Proof.core.run n (t.withInputs rest) := by
  have hstep : step s = .next (t.withInputs (edgeInputs ts ++ rest)) :=
    (stepRunsDecodedCode s _ _ i hin (.inl idle) (decodeOfEncodeIsIdentity i wellFormed)).trans (ran _)
  rw [run_succ_of_step hstep]
  exact run_lostEdges (s := t.withInputs (edgeInputs ts ++ rest)) hlive rfl n

/-- RX_DISABLE while reception is enabled (spec/45_host_configuration.md R256). -/
theorem exec_rxDisable_of_enabled (enabled : s.rxCtl.en = true) :
    exec .rxDisable s = .next { s with
      rxCtl := { s.rxCtl with en := false, live := false }
      portLog := s.portLog ++ [.unregisterEdgeCallback s.rxCtl.pin]
      responses := s.responses ++ [.none] } := by
  simp [exec, execRxDisable, State.stopReception, enabled, State.callPort, State.respond]

theorem run_rxDisable_lostEdges {ts : List Micros} {rest : List Input} (idle : s.seq.busy = false)
    (enabled : s.rxCtl.en = true) (hin : s.inputs = .code (encode .rxDisable) :: (edgeInputs ts ++ rest)) (n : Nat) :
    Sys2Proof.core.run (n + ts.length + 1) s = Sys2Proof.core.run n { s with
      inputs := rest
      rxCtl := { s.rxCtl with en := false, live := false }
      portLog := s.portLog ++ [.unregisterEdgeCallback s.rxCtl.pin]
      responses := s.responses ++ [.none] } :=
  run_command_lostEdges (i := .rxDisable)
    (t := { s with
      rxCtl := { s.rxCtl with en := false, live := false }
      portLog := s.portLog ++ [.unregisterEdgeCallback s.rxCtl.pin]
      responses := s.responses ++ [.none] })
    rfl idle hin (fun inputs => exec_rxDisable_of_enabled (s := s.withInputs inputs) enabled) rfl n

theorem run_rxTake_lostEdges {ts : List Micros} {rest : List Input} (idle : s.seq.busy = false)
    (hlive : s.rxCtl.live = false) (hin : s.inputs = .code (encode .rxTake) :: (edgeInputs ts ++ rest)) (n : Nat) :
    Sys2Proof.core.run (n + ts.length + 1) s = Sys2Proof.core.run n { s with
      inputs := rest, responses := s.responses ++ [s.latch.decodedResult] } :=
  run_command_lostEdges (i := .rxTake) (t := s.respond s.latch.decodedResult) rfl idle hin (fun _ => rfl) hlive n

theorem run_rxClear_lostEdges {ts : List Micros} {rest : List Input} (idle : s.seq.busy = false)
    (hlive : s.rxCtl.live = false) (hin : s.inputs = .code (encode .rxClear) :: (edgeInputs ts ++ rest)) (n : Nat) :
    Sys2Proof.core.run (n + ts.length + 1) s = Sys2Proof.core.run n { s with
      inputs := rest, latch := s.latch.clearAvail, responses := s.responses ++ [.none] } :=
  run_command_lostEdges (i := .rxClear) (t := State.respond { s with latch := s.latch.clearAvail } .none) rfl idle hin
    (fun _ => rfl) hlive n

/-- RX_ENABLE while reception is not live (R255). -/
theorem step_rxEnable_of_not_live {pin : Pin} {rest : List Input} (idle : s.seq.busy = false)
    (hlive : s.rxCtl.live = false) (hin : s.inputs = .code (encode (.rxEnable pin)) :: rest) :
    step s = .next { s with
      inputs := rest
      rxCtl := { en := true, live := true, pin := pin }
      portLog := s.portLog ++ [.configureInput pin, .registerEdgeCallback pin]
      responses := s.responses ++ [.none] } := by
  rw [stepRunsDecodedCode s _ rest _ hin (.inl idle) (decodeOfEncodeIsIdentity _ rfl)]
  simp [exec, execRxEnable, State.unregisterIfLive, hlive, State.callPort, State.respond]

/-- Settles O59: RX_DISABLE stops reception, so the edges before each later command are lost, and RX_TAKE reads the latch
as it stood. -/
theorem readClearLosesNoResult : Obligations.ReadClearLosesNoResult := by
  intro s pin e₁ e₂ e₃ rest idle enabled hin
  have hcount : 4 + e₁.length + e₂.length + e₃.length = 1 + e₃.length + 1 + e₂.length + 1 + e₁.length + 1 := by omega
  simp only [List.append_assoc, List.singleton_append] at hin
  rw [hcount, run_rxDisable_lostEdges idle enabled hin]
  refine Eq.trans (run_rxTake_lostEdges (by exact idle) rfl rfl _) ?_
  refine Eq.trans (run_rxClear_lostEdges (by exact idle) rfl rfl _) ?_
  refine Eq.trans (run_succ_of_step (step_rxEnable_of_not_live (by exact idle) rfl rfl) 0) ?_
  simp [Host.Core.run, Latch.clearAvail]

end Sys2Proof.Machine
end

section
/-! PROOFS. The Pulse Encoder (spec/40_pulse_encoder.md): the pulses of each micro-operation (R120 to R126), and what a
micro-operation run alone does to the state (R127 to R129). -/

namespace Sys2Proof.Machine

open Sys2Proof

/-- Settles O25: each list is the one that the pulse function names for its micro-operation. -/
theorem encoderPulseLists : Obligations.EncoderPulseLists :=
  fun _ => ⟨rfl, rfl, rfl, rfl, rfl, rfl, rfl, fun _ => rfl⟩

/-! ### The line after a micro-operation -/

/-- The protocols with a record are the two presets (spec/10_state.md R31). -/
theorem params_isSome_iff (s : State) : s.params.isSome ↔ s.proto = 1 ∨ s.proto = 2 := by
  constructor
  · intro h
    by_contra hid
    obtain ⟨h₁, h₂⟩ := not_or.mp hid
    simp [State.params, preset_eq_none h₁ h₂] at h
  · rintro (h | h) <;> rw [State.params, h] <;> rfl

theorem enc_eq_nil_iff (op : EncOp) (params : Option Params) : enc op params = [] ↔ params = none := by
  cases params with
  | none => exact iff_of_true rfl rfl
  | some p => cases op <;> exact iff_of_false (List.cons_ne_nil _ _) (Option.some_ne_none p)

/-- The last level of a micro-operation is LOW, its pulses being pairs (R128); without a record there is none (R129). -/
theorem enc_getLast_level (op : EncOp) (params : Option Params) :
    (enc op params).getLast?.map Pulse.level = if params.isSome then some .low else none := by
  cases hl : (enc op params).getLast? with
  | none =>
    have hnone : params = none := (enc_eq_nil_iff op params).mp (List.getLast?_eq_none_iff.mp hl)
    simp [hnone]
  | some p =>
    have hsome : params ≠ none := fun h => by simp [(enc_eq_nil_iff op params).mpr h] at hl
    simp [getLast_level_of_paired (enc_paired op params) hl, Option.isSome_iff_ne_none, hsome]

/-- A micro-operation run alone, written out (R127, R129). -/
theorem encode_eq (s : State) (op : EncOp) :
    s.encode op = { s with
      portLog := s.portLog ++ (enc op s.params).flatMap (pulseCalls s.txPin.pin)
      txLevel := if s.proto = 1 ∨ s.proto = 2 then .low else s.txLevel } := by
  rw [State.encode, emitPulses_eq, enc_getLast_level]
  simp only [params_isSome_iff]
  split <;> rfl

/-- Settles O26: each pair is a micro-operation and its instruction, so `encode_eq` says what the instruction does. -/
theorem encoderMicroOpsEmitTheirPulses : Obligations.EncoderMicroOpsEmitTheirPulses := by
  intro s u i h
  have hmem : (u, i) ∈ [EncOp.bit0, .bit1, .sync, .symZero, .symFloat, .sym10, .symOne].map fun op => (op, op.instr) := h
  obtain ⟨op, -, hop⟩ := List.mem_map.mp hmem
  cases hop
  rw [exec_encOp, encode_eq]

end Sys2Proof.Machine
end

section
/-! PROOFS. The pulse list of a burst (spec/41_transmission_controller.md R142): its length and last pulse (R150), when it
is empty (R143), its duration (R149), and the two views of a tri-state word (R148). -/

namespace Sys2Proof.Machine

open Sys2Proof

/-- A burst is its frame's pulses, `N` times (R142). -/
theorem burst_eq_flatten (ops : List EncOp) (params : Option Params) (n : Nat) :
    burst ops params n = (List.replicate n (ops.flatMap fun op => enc op params)).flatten := by
  induction n with
  | zero => rfl
  | succ n ih => simpa [burst, List.replicate_succ] using ih

theorem codeFrameOps_ne_nil (value : BitVec 32) (len : Nat) : codeFrameOps value len ≠ [] :=
  List.append_ne_nil_of_right_ne_nil _ (List.cons_ne_nil _ _)

theorem tristateFrameOps_ne_nil (packed : BitVec 32) (count : Nat) : tristateFrameOps packed count ≠ [] :=
  List.append_ne_nil_of_right_ne_nil _ (List.cons_ne_nil _ _)

/-! ### When a burst is empty (R143) -/

theorem burst_eq_nil_iff {ops : List EncOp} (hops : ops ≠ []) (params : Option Params) (n : Nat) :
    burst ops params n = [] ↔ n = 0 ∨ params = none := by
  have hframe : (ops.flatMap fun op => enc op params) = [] ↔ params = none := by
    obtain ⟨op, rest, rfl⟩ := List.exists_cons_of_ne_nil hops
    simp only [List.flatMap_eq_nil_iff, enc_eq_nil_iff]
    exact ⟨fun h => h op List.mem_cons_self, fun h _ _ => h⟩
  rw [burst_eq_flatten, List.flatten_eq_nil_iff, List.forall_mem_replicate, hframe]

/-- Settles O32: a frame always ends with a sync, so only the count and the record matter. -/
theorem burstEmptyExactlyWhen : Obligations.BurstEmptyExactlyWhen :=
  fun value len n params => burst_eq_nil_iff (codeFrameOps_ne_nil value len) params n

/-! ### Length and duration (R149, R150) -/

/-- A sum over the pulses of a burst, when a bit 0 and a bit 1 weigh the same. -/
theorem sum_map_burst_codeFrameOps (f : Pulse → Nat) {params : Option Params} {bit : Nat}
    (zero : ((enc .bit0 params).map f).sum = bit) (one : ((enc .bit1 params).map f).sum = bit)
    (value : BitVec 32) (len n : Nat) :
    ((burst (codeFrameOps value len) params n).map f).sum = n * (len * bit + ((enc .sync params).map f).sum) := by
  have hbit (i : Nat) : ((enc (bitOp value i) params).map f).sum = bit := by
    unfold bitOp
    split
    · exact one
    · exact zero
  have hframe : (((codeFrameOps value len).flatMap fun op => enc op params).map f).sum =
      len * bit + ((enc .sync params).map f).sum := by
    simp [codeFrameOps, List.flatMap_def, List.map_flatten, List.sum_flatten, Function.comp_def, hbit]
  rw [burst_eq_flatten, List.map_flatten, List.map_replicate, List.sum_flatten, List.map_replicate, hframe,
    List.sum_replicate, smul_eq_mul]

/-- Each of the `L` bits and the sync is two pulses (R142). -/
theorem length_burst_codeFrameOps (value : BitVec 32) (len n : Nat) (p : Params) :
    (burst (codeFrameOps value len) (some p) n).length = n * (2 * len + 2) := by
  have h := sum_map_burst_codeFrameOps (fun _ => 1) (params := some p) rfl rfl value len n
  rw [List.map_const', List.sum_replicate, smul_eq_mul, mul_one] at h
  rw [h, Nat.mul_comm 2 len]
  rfl

/-- A burst ends with the LOW half of its last sync (R150). -/
theorem burst_getLast? (value : BitVec 32) (len : Nat) (p : Params) {n : Nat} (hn : 0 < n) :
    (burst (codeFrameOps value len) (some p) n).getLast? = some ⟨.low, p.mult.syncLow * p.plen.toNat⟩ := by
  obtain ⟨n, rfl⟩ := Nat.exists_eq_succ_of_ne_zero hn.ne'
  have hsync : (enc .sync (some p)).getLast? = some ⟨.low, p.mult.syncLow * p.plen.toNat⟩ := rfl
  rw [burst_eq_flatten, List.replicate_succ', codeFrameOps]
  simp [List.getLast?_append, hsync]

/-- Settles O31: the pulses are counted, paired micro-operation by micro-operation, and end with the last sync. -/
theorem burstIsPairsEndingLow : Obligations.BurstIsPairsEndingLow :=
  fun value len n p =>
    ⟨length_burst_codeFrameOps value len n p, burst_paired _ _ n, fun hn => burst_getLast? value len p hn⟩

/-- Settles O33: with either preset a bit 0 lasts as long as a bit 1, 4 pulse lengths or 3. -/
theorem burstDurationFormula : Obligations.BurstDurationFormula := by
  intro value len n plen
  have pair_sum (p : Params) (high low : Nat) :
      ((pulsePair p high low).map Pulse.duration).sum = (high + low) * p.plen.toNat := by
    simp [pulsePair, Params.duration, Nat.add_mul]
  constructor
  · have hbit := pair_sum ⟨1, plen, Config.preset1⟩
    rw [sum_map_burst_codeFrameOps Pulse.duration (params := some _) (hbit 1 3) (hbit 3 1), enc, encPair, syncPair, hbit]
    simp only [Config.preset1]
    ring
  · have hbit := pair_sum ⟨2, plen, Config.preset2⟩
    rw [sum_map_burst_codeFrameOps Pulse.duration (params := some _) (hbit 1 2) (hbit 2 1), enc, encPair, syncPair, hbit]
    simp only [Config.preset2]
    ring

/-! ### The two views of a tri-state word (R148) -/

/-- A symbol's pulses are those of its two bits, the more significant first (spec/40_pulse_encoder.md R123 to R126). -/
theorem enc_symbolOp (v : BitVec 32) (k : Nat) (params : Option Params) :
    enc (symbolOp (v.extractLsb' k 2)) params = enc (bitOp v (k + 1)) params ++ enc (bitOp v k) params := by
  have hsymbol : (v.extractLsb' k 2).toNat = 2 * (v.getLsbD (k + 1)).toNat + (v.getLsbD k).toNat := by
    have hbits : ∀ ss : BitVec 2, ss.toNat = 2 * (ss.getLsbD 1).toNat + (ss.getLsbD 0).toNat := by decide
    rw [hbits, BitVec.getLsbD_extractLsb', BitVec.getLsbD_extractLsb']
    rfl
  cases params with
  | none => rfl
  | some p =>
    rw [symbolOp, hsymbol, bitOp, bitOp]
    cases v.getLsbD (k + 1) <;> cases v.getLsbD k <;> rfl

/-- The pulses of `c` symbols are those of their `2c` bits, the most significant first. -/
theorem flatMap_enc_symbols (v : BitVec 32) (c : Nat) (params : Option Params) :
    ((List.range c).flatMap fun k => enc (symbolOp (symbolAt v c k)) params) =
      (List.range (2 * c)).reverse.flatMap fun i => enc (bitOp v i) params := by
  induction c with
  | zero => rfl
  | succ c ih =>
    have hshift (k : Nat) : symbolAt v (c + 1) (k + 1) = symbolAt v c k := by
      rw [symbolAt, symbolAt, show c + 1 - 1 - (k + 1) = c - 1 - k by omega]
    have hfirst : symbolAt v (c + 1) 0 = v.extractLsb' (2 * c) 2 := rfl
    rw [List.range_succ_eq_map, List.flatMap_cons, List.flatMap_map, hfirst, enc_symbolOp]
    simp only [hshift, ih]
    rw [Nat.mul_succ, List.range_succ, List.range_succ]
    simp

/-- The burst of `c` symbols is the burst of the same value and `2c` bits (R148). -/
theorem burst_tristateFrameOps (packed : BitVec 32) (count : Nat) (params : Option Params) (n : Nat) :
    burst (tristateFrameOps packed count) params n = burst (codeFrameOps packed (2 * count)) params n := by
  have hframe := flatMap_enc_symbols packed count params
  rw [burst_eq_flatten, burst_eq_flatten, tristateFrameOps, codeFrameOps]
  simp only [List.flatMap_append, List.flatMap_map, hframe]

end Sys2Proof.Machine
end

section
/-! PROOFS. The Transmission Controller (spec/41_transmission_controller.md): the start, pulse and end steps of a burst
(R144 to R146), the commands that take the start step or cannot (R143, R147, R148), a whole burst with the edges that fall
in it (R141), and what an edge leaves alone (R151). -/

namespace Sys2Proof.Machine

open Sys2Proof

variable {s t : State}

/-! ### The sequencer's turn in a burst -/

/-- With a pulse at `POS` the turn is a pulse step (R145). -/
theorem sequencerTurn_of_pulse (busy : s.seq.busy = true) {p : Pulse} (at_pos : s.seq.pulses[s.seq.pos]? = some p) :
    s.sequencerTurn = .next (s.pulseStep p) := by
  simp [State.sequencerTurn, busy, at_pos]

/-- With `POS` at the end the turn is the end step (R146). -/
theorem sequencerTurn_of_end (busy : s.seq.busy = true) (at_end : s.seq.pos = s.seq.pulses.length) :
    s.sequencerTurn = .next s.endBurst := by
  have hnone : s.seq.pulses[s.seq.pos]? = none := List.getElem?_eq_none at_end.ge
  simp only [State.sequencerTurn, busy, hnone, if_true, if_pos at_end]

/-- Settles O14: a pulse step, written out. -/
theorem pulseStepDrivesLine : Obligations.PulseStepDrivesLine := by
  intro s p busy at_pos
  rw [sequencerTurn_of_pulse busy at_pos, pulseStep_eq]
  rfl

/-- Settles O15: the end step, written out, with and without a suspended reception. -/
theorem endStepRestoresReception : Obligations.EndStepRestoresReception := by
  intro s busy at_end
  rw [sequencerTurn_of_end busy at_end, endBurst_eq]
  cases s.seq.susp <;> simp

/-- In a burst, with no input left or a host word first, the step is the sequencer's and the word stays (R141). -/
theorem step_eq_sequencerTurn (busy : s.seq.busy = true)
    (waits : ∀ x, s.inputs.head? = some x → ∃ w, x = .code (.host w)) : step s = s.sequencerTurn := by
  have hfetch : s.fetch = .sequencer s := by
    cases hin : s.inputs with
    | nil => simp [State.fetch, hin]
    | cons x rest =>
      obtain ⟨w, rfl⟩ := waits x (by simp [hin])
      simp [State.fetch, hin, busy]
  rw [step, hfetch]

/-- Settles O13: `POS` is before the end or at it, and the turn is a pulse step or the end step. -/
theorem commandWaitsForBurst : Obligations.CommandWaitsForBurst := by
  intro s w rest hin busy line
  have hstep : step s = s.sequencerTurn := step_eq_sequencerTurn busy (by simp [hin])
  obtain ⟨-, hle, -⟩ := line.burst busy
  rcases hle.lt_or_eq with before | at_end
  · refine ⟨_, hstep.trans (sequencerTurn_of_pulse busy (List.getElem?_eq_getElem before)), rfl, ?_, ?_⟩
    · exact fun _ => ⟨rfl, rfl⟩
    · exact fun at_end => absurd at_end before.ne
  · refine ⟨_, hstep.trans (sequencerTurn_of_end busy at_end), ?_⟩
    rw [endBurst_eq]
    exact ⟨rfl, fun before => absurd at_end before.ne, fun _ => ⟨rfl, rfl⟩⟩

/-! ### The commands -/

/-- A transmit command depends on its micro-operations only by the burst that they encode to. -/
theorem transmit_congr {ops ops' : List EncOp}
    (h : burst ops s.params s.repeatCount.toNat = burst ops' s.params s.repeatCount.toNat) :
    s.transmit ops = s.transmit ops' := by
  simp only [State.transmit, h]

/-- With a supported protocol and a nonzero repeat count a frame has a burst to send (R143). -/
theorem burst_ne_nil {ops : List EncOp} (hops : ops ≠ []) (proto : s.proto = 1 ∨ s.proto = 2) (rep : s.repeatCount ≠ 0) :
    burst ops s.params s.repeatCount.toNat ≠ [] := by
  rw [Ne, burst_eq_nil_iff hops, not_or]
  refine ⟨fun h => rep (BitVec.eq_of_toNat_eq h), fun h => ?_⟩
  have hsome := (params_isSome_iff s).mpr proto
  simp [h] at hsome

theorem transmit_eq_startBurst {ops : List EncOp} (hops : ops ≠ []) (pin : s.txPin.valid = true)
    (proto : s.proto = 1 ∨ s.proto = 2) (rep : s.repeatCount ≠ 0) :
    s.transmit ops = s.startBurst (burst ops s.params s.repeatCount.toNat) := by
  simp [State.transmit, pin, burst_ne_nil hops proto rep]

/-- Without a pin, a supported protocol or a repeat count a transmit command is a silent no-op (R143). -/
theorem transmit_silent {ops : List EncOp} (hops : ops ≠ [])
    (cannot : s.txPin.valid = false ∨ (s.proto ≠ 1 ∧ s.proto ≠ 2) ∨ s.repeatCount = 0) :
    ∃ e, s.transmit ops = (s.record e).respond .none := by
  refine (transmit_cases s ops).resolve_right ?_
  rintro ⟨pin, nonempty, -⟩
  rw [Ne, burst_eq_nil_iff hops, not_or] at nonempty
  obtain ⟨rep, params⟩ := nonempty
  rcases cannot with h | h | h
  · simp [pin] at h
  · exact not_or.mpr h ((params_isSome_iff s).mp (Option.isSome_iff_ne_none.mpr params))
  · exact rep (by rw [h]; rfl)

/-- A TX_CODE in range that can transmit takes the start step of its burst (R147). -/
theorem exec_txCode_eq_startBurst (value : BitVec 32) {len : Nat} (hpos : 1 ≤ len) (hle : len ≤ 32)
    (pin : s.txPin.valid = true) (proto : s.proto = 1 ∨ s.proto = 2) (rep : s.repeatCount ≠ 0) :
    exec (.txCode value len) s =
      .next (s.startBurst (burst (codeFrameOps value len) s.params s.repeatCount.toNat)) := by
  have hrange : ¬(len < 1 ∨ 32 < len) := by omega
  rw [← transmit_eq_startBurst (codeFrameOps_ne_nil value len) pin proto rep]
  exact if_neg hrange

/-- Settles O27: the start step, written out. -/
theorem txCodeStartsBurst : Obligations.TxCodeStartsBurst := by
  intro s value len hpos hle pin proto rep
  rw [exec_txCode_eq_startBurst value hpos hle pin proto rep, startBurst_eq]

/-- Settles O28: the count is in range and the burst is not empty. -/
theorem txTristateStartsBurst : Obligations.TxTristateStartsBurst := by
  intro s packed count hpos hle pin proto rep
  have hrange : ¬(count < 1 ∨ 16 < count) := by omega
  calc exec (.txTristate packed count) s = .next (s.transmit (tristateFrameOps packed count)) := if_neg hrange
    _ = _ := by rw [transmit_eq_startBurst (tristateFrameOps_ne_nil packed count) pin proto rep, startBurst_eq]

/-- Settles O29: the range check ends the command, or `transmit` does. -/
theorem transmitThatCannotIsSilent : Obligations.TransmitThatCannotIsSilent := by
  intro s value len cannot
  by_cases hrange : len < 1 ∨ 32 < len
  · exact ⟨.operandOutOfRange, if_pos hrange⟩
  · obtain ⟨e, he⟩ : ∃ e, s.transmit (codeFrameOps value len) = (s.record e).respond .none := by
      refine transmit_silent (codeFrameOps_ne_nil value len) ?_
      rcases cannot with h | h | h
      · omega
      · omega
      · exact h
    exact ⟨e, (if_neg hrange).trans (congrArg _ he)⟩

/-- Settles O30: the two range checks agree, and so do the bursts. -/
theorem tristateIsCodeOfTwiceTheBits : Obligations.TristateIsCodeOfTwiceTheBits := by
  intro s packed count
  have hrange : (count < 1 ∨ 16 < count) ↔ (2 * count < 1 ∨ 32 < 2 * count) := by omega
  have htransmit : s.transmit (tristateFrameOps packed count) = s.transmit (codeFrameOps packed (2 * count)) :=
    transmit_congr (burst_tristateFrameOps packed count _ _)
  simp only [exec, execTxTristate, execTxCode, hrange, htransmit]

/-! ### A whole burst -/

/-- The pulse steps of a list of pulses emit them and move `POS` past them. -/
theorem foldl_pulseStep_eq (ps : List Pulse) (s : State) :
    ps.foldl State.pulseStep s =
      { s.emitPulses ps with seq := { s.seq with pos := s.seq.pos + ps.length } } := by
  induction ps generalizing s with
  | nil => rfl
  | cons p rest ih =>
    have hpos : s.seq.pos + 1 + rest.length = s.seq.pos + (rest.length + 1) := by omega
    have hemit : s.emitPulses (p :: rest) = (s.emitPulse p).emitPulses rest := rfl
    rw [List.foldl_cons, ih, hemit, emitPulses_eq, emitPulses_eq, List.length_cons, ← hpos]
    rfl

/-- The pulse at `POS` and the pulses after it, from what is left of the burst. -/
theorem pulse_of_drop {q : TxSeq} {p : Pulse} {ps : List Pulse} (left : q.pulses.drop q.pos = p :: ps) :
    q.pulses[q.pos]? = some p ∧ q.pulses.drop (q.pos + 1) = ps := by
  constructor
  · rw [← List.head?_drop, left, List.head?_cons]
  · rw [← List.tail_drop, left, List.tail_cons]

/-- The rest of a burst with nothing but waiting command words: a pulse step for each pulse left, then the end step. -/
theorem run_burst_waiting {ps : List Pulse} (busy : s.seq.busy = true) (hle : s.seq.pos ≤ s.seq.pulses.length)
    (left : s.seq.pulses.drop s.seq.pos = ps) (waits : ∀ x, s.inputs.head? = some x → ∃ w, x = .code (.host w)) :
    Sys2Proof.core.run (ps.length + 1) s = .next (ps.foldl State.pulseStep s).endBurst := by
  have hstep : step s = s.sequencerTurn := step_eq_sequencerTurn busy waits
  induction ps generalizing s with
  | nil =>
    have at_end : s.seq.pos = s.seq.pulses.length := hle.antisymm (List.drop_eq_nil_iff.mp left)
    exact run_succ_of_step (hstep.trans (sequencerTurn_of_end busy at_end)) 0
  | cons p ps ih =>
    obtain ⟨at_pos, left⟩ := pulse_of_drop left
    rw [List.length_cons, run_succ_of_step (hstep.trans (sequencerTurn_of_pulse busy at_pos))]
    exact ih (s := s.pulseStep p) busy (List.getElem?_eq_some_iff.mp at_pos).1 left waits
      (step_eq_sequencerTurn (s := s.pulseStep p) busy waits)

/-- A turn of the sequencer that stands first in a burst with a pulse at `POS`. -/
theorem step_turn_of_pulse {p : Pulse} {rest : List Input} (busy : s.seq.busy = true)
    (at_pos : s.seq.pulses[s.seq.pos]? = some p) (hin : s.inputs = .turn :: rest) :
    step s = .next ((s.withInputs rest).pulseStep p) := by
  have hfetch : s.fetch = .sequencer (s.withInputs rest) := by simp [State.fetch, hin]
  rw [step, hfetch]
  exact sequencerTurn_of_pulse (s := s.withInputs rest) busy at_pos

/-- The rest of a burst with reception not live: each edge that stands before the waiting command words is lost in a step
of its own (spec/42_edge_classifier.md R170), and each turn, of which there are no more than pulses, is a pulse step. -/
theorem run_burst {ps : List Pulse} {during rest : List Input} (busy : s.seq.busy = true)
    (notLive : s.rxCtl.live = false) (hle : s.seq.pos ≤ s.seq.pulses.length)
    (left : s.seq.pulses.drop s.seq.pos = ps) (hin : s.inputs = during ++ rest)
    (edgesAndTurns : during.all (fun x => x.isEdge || x.isTurn) = true)
    (waits : ∀ x, rest.head? = some x → ∃ w, x = .code (.host w)) (turns : during.countP Input.isTurn ≤ ps.length) :
    Sys2Proof.core.run (ps.length + 1 + during.countP Input.isEdge) s =
      .next (ps.foldl State.pulseStep (s.withInputs rest)).endBurst := by
  induction during generalizing s ps with
  | nil =>
    obtain rfl : s.inputs = rest := hin
    exact run_burst_waiting busy hle left waits
  | cons x during ih =>
    obtain ⟨hx, edgesAndTurns⟩ : (x.isEdge || x.isTurn) = true ∧ during.all (fun x => x.isEdge || x.isTurn) = true := by
      simpa using edgesAndTurns
    match x, hx with
    | .code (.edge τ), _ =>
      have hcount : (Input.code (.edge τ) :: during).countP Input.isEdge = during.countP Input.isEdge + 1 :=
        List.countP_cons_of_pos rfl
      rw [hcount, ← Nat.add_assoc, run_succ_of_step (step_lostEdge notLive hin)]
      exact ih (s := s.withInputs (during ++ rest)) busy notLive hle left rfl edgesAndTurns turns
    | .turn, _ =>
      have hturns : during.countP Input.isTurn + 1 ≤ ps.length := (List.countP_cons_of_pos rfl).symm.trans_le turns
      obtain ⟨p, ps, rfl⟩ := List.exists_cons_of_length_pos (Nat.zero_lt_of_lt hturns)
      obtain ⟨at_pos, left⟩ := pulse_of_drop left
      have hcount : (p :: ps).length + 1 + (Input.turn :: during).countP Input.isEdge =
          ps.length + 1 + during.countP Input.isEdge + 1 := by
        rw [List.countP_cons_of_neg (by simp [Input.isEdge]), List.length_cons]
        omega
      rw [hcount, run_succ_of_step (step_turn_of_pulse busy at_pos hin)]
      exact ih (s := (s.withInputs (during ++ rest)).pulseStep p) busy notLive (List.getElem?_eq_some_iff.mp at_pos).1
        left rfl edgesAndTurns (Nat.le_of_succ_le_succ hturns)

@[simp] theorem startBurst_seq (s : State) (ps : List Pulse) :
    (s.startBurst ps).seq = { busy := true, susp := s.rxCtl.live, pos := 0, pulses := ps } := by
  rw [startBurst_eq]

@[simp] theorem startBurst_rxCtl (s : State) (ps : List Pulse) :
    (s.startBurst ps).rxCtl = { s.rxCtl with live := false } := by
  rw [startBurst_eq]

@[simp] theorem startBurst_inputs (s : State) (ps : List Pulse) : (s.startBurst ps).inputs = s.inputs := by
  rw [startBurst_eq]

/-- The start step does not read the inputs. -/
theorem startBurst_withInputs (s : State) (ps : List Pulse) (inputs : List Input) :
    (s.startBurst ps).withInputs inputs = (s.withInputs inputs).startBurst ps := by
  rw [startBurst_eq, startBurst_eq]
  rfl

/-- The start step, every pulse step and the end step, written out: reception is suspended and restored (R144 to R146). -/
theorem wholeBurst_eq (s : State) (ps : List Pulse) :
    (ps.foldl State.pulseStep (s.startBurst ps)).endBurst = { s with
      portLog := s.portLog ++ (if s.rxCtl.live then [.unregisterEdgeCallback s.rxCtl.pin] else []) ++
        ps.flatMap (pulseCalls s.txPin.pin) ++
        (if s.rxCtl.live then [.registerEdgeCallback s.rxCtl.pin] else [])
      seq := { busy := false, susp := false, pos := ps.length, pulses := ps }
      txLevel := (ps.getLast?.map Pulse.level).getD s.txLevel
      responses := s.responses ++ [.none] } := by
  rcases s with ⟨_, _, _, _, _, ⟨en, live, pin⟩, _, _, _, _, _, _, _, _, _, _⟩
  rw [endBurst_eq, foldl_pulseStep_eq, emitPulses_eq, startBurst_eq]
  cases live <;> simp

/-- Settles O34: the start step, the run of the sequencer with the edges lost in it, and the end step put together. -/
theorem burstRunsToItsEnd : Obligations.BurstRunsToItsEnd := by
  intro s value len during rest hpos hle idle pin proto rep hin edgesAndTurns waits ps turns
  have hstart : step s = .next ((s.startBurst ps).withInputs (during ++ rest)) := by
    refine (stepRunsDecodedCode s _ _ _ hin (.inl idle) (decodeOfEncodeIsIdentity _ (decide_eq_true (by omega)))).trans ?_
    rw [startBurst_withInputs]
    exact exec_txCode_eq_startBurst (s := s.withInputs (during ++ rest)) value hpos hle pin proto rep
  have hlow : (ps.getLast?.map Pulse.level).getD s.txLevel = .low := by
    have hlast := List.getLast?_eq_some_getLast (burst_ne_nil (codeFrameOps_ne_nil value len) proto rep)
    rw [hlast]
    exact getLast_level_of_paired (burst_paired _ _ _) hlast
  have hcount : ps.length + 2 + during.countP Input.isEdge = ps.length + 1 + during.countP Input.isEdge + 1 := by omega
  rw [hcount, run_succ_of_step hstart, run_burst (ps := ps) (rest := rest) (by simp) (by simp) (by simp) (by simp) rfl
    edgesAndTurns waits turns]
  have hrest : ((s.startBurst ps).withInputs (during ++ rest)).withInputs rest = (s.withInputs rest).startBurst ps :=
    startBurst_withInputs s ps rest
  rw [hrest, wholeBurst_eq, ← hlow]
  rfl

/-! ### Edges -/

/-- The classifier gives no response and calls no port (R151). -/
theorem classify_responses_portLog (s : State) (d : Micros) :
    (s.classify d).responses = s.responses ∧ (s.classify d).portLog = s.portLog := by
  rcases classify_cases s d with ⟨-, -, -, h⟩ | ⟨-, -, h⟩ | ⟨-, -, h⟩ | ⟨-, -, -, h⟩ | ⟨-, -, -, h⟩ <;> rw [h]
  · rcases decodeClosed_cases { s with cls := s.cls.countSync } s.cls.closedFrame with ⟨e, he⟩ | ⟨a, -, -, he⟩ <;>
      rw [he] <;> exact ⟨rfl, rfl⟩
  all_goals exact ⟨rfl, rfl⟩

/-- Settles O57: the registers by the footprint of an edge, the response and the Port calls by the classifier's branches. -/
theorem edgeNeverTransmits : Obligations.EdgeNeverTransmits := by
  intro s τ
  have kept : s.KeepsAllBut [.cls, .result, .avail] (s.deliverEdge τ) := deliverEdge_keeps s τ
  refine ⟨s.deliverEdge τ, rfl, kept .seq (by simp), kept .txLevel (by simp), ?_⟩
  rcases deliverEdge_cases s τ with ⟨live, h⟩ | ⟨live, h⟩
  · simp [h, live]
  · obtain ⟨responses, portLog⟩ :=
      classify_responses_portLog { s.callPort (.nowMicroseconds τ) with cls := s.cls.stamp τ } (τ - s.cls.lastT)
    refine ⟨by rw [h, responses]; rfl, kept .rxCtl (by simp), by rw [h, portLog, live]; rfl⟩

end Sys2Proof.Machine
end

section
/-! PROOFS. The storage arrays (spec/10_state.md R36, R37, R43): the operations that can write them, and the two
invariants that every step keeps, the bounds of the indices (spec/42_edge_classifier.md R179) and the ORDINARY intervals
of a frame candidate (R180). -/

namespace Sys2Proof.Machine

open Sys2Proof

variable {s t u : State} {i : Instr}

/-! ### What leaves the storage as it is -/

/-- `CAP`, the classifier, the snapshot array with its length, and the passed operands of COMMIT hold in `t` what they
hold in `s`. -/
structure State.SameStorage (s t : State) : Prop where
  cap : t.cap = s.cap
  cls : t.cls = s.cls
  raw : t.latch.raw = s.latch.raw
  rawLen : t.latch.rawLen = s.latch.rawLen
  args : t.commitArgs = s.commitArgs

theorem State.SameStorage.trans (h₁ : s.SameStorage t) (h₂ : t.SameStorage u) : s.SameStorage u :=
  ⟨h₂.cap.trans h₁.cap, h₂.cls.trans h₁.cls, h₂.raw.trans h₁.raw, h₂.rawLen.trans h₁.rawLen, h₂.args.trans h₁.args⟩

/-- The index invariant reads the storage only. -/
theorem State.IndexInv.of_sameStorage (hs : s.IndexInv) (h : s.SameStorage t) : t.IndexInv := by
  obtain ⟨hcap, hcls, hraw, hrawLen, hargs⟩ := h
  constructor <;> simp only [hcap, hcls, hraw, hrawLen, hargs]
  exacts [hs.cap_pos, hs.timings_length, hs.cc_le, hs.raw_length, hs.rawLen_le, hs.args_le]

/-- The operations that write the result are DECODE, COMMIT and EDGE (R43, R48). -/
theorem result_mem_footprint (h : .result ∈ footprint i) : i = .decode ∨ i = .commit ∨ ∃ τ, i = .edge τ := by
  cases i <;> simp_all [footprint]

theorem startBurst_sameStorage (s : State) (ps : List Pulse) : s.SameStorage (s.startBurst ps) := by
  rw [startBurst_eq]
  exact ⟨rfl, rfl, rfl, rfl, rfl⟩

theorem endBurst_sameStorage (s : State) : s.SameStorage s.endBurst := by
  rw [endBurst_eq]
  exact ⟨rfl, rfl, rfl, rfl, rfl⟩

theorem encode_sameStorage (s : State) (op : EncOp) : s.SameStorage (s.encode op) := by
  rw [State.encode, emitPulses_eq]
  exact ⟨rfl, rfl, rfl, rfl, rfl⟩

theorem exec_transmit_sameStorage (hi : IsTransmit i) (h : exec i s = .next t) : s.SameStorage t := by
  rcases exec_transmit_cases hi h with ⟨e, rfl⟩ | ⟨ops, -, -, rfl⟩
  · exact ⟨rfl, rfl, rfl, rfl, rfl⟩
  · exact startBurst_sameStorage s _

theorem unregisterIfLive_sameStorage (s : State) : s.SameStorage s.unregisterIfLive := by
  unfold State.unregisterIfLive
  split <;> exact ⟨rfl, rfl, rfl, rfl, rfl⟩

theorem stopReception_sameStorage (s : State) : s.SameStorage s.stopReception := by
  unfold State.stopReception
  split <;> exact ⟨rfl, rfl, rfl, rfl, rfl⟩

/-- An operation that does not write the result leaves the whole storage (R48). -/
theorem exec_sameStorage (hi : .result ∉ footprint i) (h : exec i s = .next t) : s.SameStorage t := by
  have encoder : ∀ op : EncOp, exec op.instr s = .next t → s.SameStorage t := by
    intro op hop
    rw [exec_encOp] at hop
    cases hop
    exact encode_sameStorage s op
  cases i with
  | decode | commit | edge => simp [footprint] at hi
  | txCode value len => exact exec_transmit_sameStorage (.inl ⟨_, _, rfl⟩) h
  | txTristate packed count => exact exec_transmit_sameStorage (.inr ⟨_, _, rfl⟩) h
  | rxEnable pin =>
    cases h
    exact (unregisterIfLive_sameStorage s).trans ⟨rfl, rfl, rfl, rfl, rfl⟩
  | rxDisable =>
    cases h
    exact (stopReception_sameStorage s).trans ⟨rfl, rfl, rfl, rfl, rfl⟩
  | emitBit0 => exact encoder .bit0 h
  | emitBit1 => exact encoder .bit1 h
  | emitSync => exact encoder .sync h
  | emitSymZero => exact encoder .symZero h
  | emitSymFloat => exact encoder .symFloat h
  | emitSym10 => exact encoder .sym10 h
  | emitSymOne => exact encoder .symOne h
  | setTxPin | setProtocol | setProtocolPl | setRepeat | setRxTolerance | rxAvailable | rxTake | rxClear =>
    cases h
    exact ⟨rfl, rfl, rfl, rfl, rfl⟩

/-! ### The indices -/

/-- `t` has the capacity of `s` and its indices are within it. -/
def State.StaysWithin (s t : State) : Prop := t.IndexInv ∧ t.cap = s.cap

theorem State.IndexInv.staysWithin_of_sameStorage (hs : s.IndexInv) (h : s.SameStorage t) : s.StaysWithin t :=
  ⟨hs.of_sameStorage h, h.cap⟩

/-- A frame of at most `CAP` intervals has a length field of at most `CAP`; above 255 the field is free, and so is the
room (log entry 6). -/
theorem rawLenField_le {n cap : Nat} (h : n ≤ cap) : (rawLenField n).toNat ≤ cap := by
  by_cases hn : n < 256
  · rwa [rawLenField_toNat hn]
  · have := (rawLenField n).isLt
    omega

/-- COMMIT of operands that fit (spec/44_result_store.md R230). -/
theorem State.IndexInv.publish (hs : s.IndexInv) {a : Accepted} (fits : a.frame.length ≤ s.cap) :
    State.IndexInv { s with commitArgs := a, latch := s.latch.publish a } where
  cap_pos := hs.cap_pos
  timings_length := hs.timings_length
  cc_le := hs.cc_le
  raw_length := (overlay_length _ _).trans hs.raw_length
  rawLen_le := rawLenField_le fits
  args_le := fits

/-- A write of the classifier that keeps the array's size and puts `CC` within it. -/
theorem State.IndexInv.withCls (hs : s.IndexInv) {c : Classifier} (size : c.timings.length = s.cls.timings.length)
    (index : c.cc ≤ s.cap) : State.IndexInv { s with cls := c } where
  cap_pos := hs.cap_pos
  timings_length := size.trans hs.timings_length
  cc_le := index
  raw_length := hs.raw_length
  rawLen_le := hs.rawLen_le
  args_le := hs.args_le

theorem openFrame_length (c : Classifier) (d : Micros) : (c.openFrame d).timings.length = c.timings.length :=
  List.length_set

theorem append_length (c : Classifier) (d : Micros) : (c.append d).timings.length = c.timings.length :=
  List.length_set

/-- DECODE passes on a frame no longer than what it reads (spec/43_protocol_decoder.md R207). -/
theorem decodeClosed_staysWithin (hs : s.IndexInv) {frame : List Micros} (fits : frame.length ≤ s.cap) :
    s.StaysWithin (s.decodeClosed frame) := by
  rcases decodeClosed_cases s frame with ⟨e, he⟩ | ⟨a, accepted, -, he⟩ <;> rw [he]
  · exact hs.staysWithin_of_sameStorage ⟨rfl, rfl, rfl, rfl, rfl⟩
  · obtain ⟨-, rfl, -⟩ := decodeFrame_some accepted
    exact ⟨hs.publish fits, rfl⟩

/-- `CC` is at most `CAP`, so the closed frame is too (spec/42_edge_classifier.md R179). -/
theorem State.IndexInv.closedFrame_le_cap (hs : s.IndexInv) : s.cls.closedFrame.length ≤ s.cap :=
  (closedFrame_length_le s.cls).trans ((Nat.sub_le _ _).trans hs.cc_le)

/-- Each branch writes `CC` as 1, 0, or one more where it is not `CAP` (R175, R177, R178). -/
theorem classify_staysWithin (hs : s.IndexInv) (d : Micros) : s.StaysWithin (s.classify d) := by
  have recorded (e : Event) : (s.record e).IndexInv := hs.of_sameStorage ⟨rfl, rfl, rfl, rfl, rfl⟩
  rcases classify_cases s d with ⟨-, -, -, h⟩ | ⟨-, -, h⟩ | ⟨-, -, h⟩ | ⟨-, -, -, h⟩ | ⟨-, -, hcc, h⟩ <;> rw [h]
  · have counted : State.IndexInv { s with cls := s.cls.countSync } := hs.withCls rfl hs.cc_le
    obtain ⟨handed, hcap⟩ := decodeClosed_staysWithin counted hs.closedFrame_le_cap
    have hcls := decodeClosed_keeps { s with cls := s.cls.countSync } s.cls.closedFrame .cls (by simp)
    refine ⟨handed.withCls ?_ handed.cap_pos, hcap⟩
    rw [openFrame_length, hcls]
  · exact ⟨(recorded _).withCls (openFrame_length _ d) hs.cap_pos, rfl⟩
  · exact ⟨(recorded _).withCls (openFrame_length _ d) hs.cap_pos, rfl⟩
  · exact ⟨(recorded _).withCls rfl (Nat.zero_le _), rfl⟩
  · exact ⟨hs.withCls (append_length _ d) (hs.cc_le.lt_of_ne hcc), rfl⟩

theorem deliverEdge_staysWithin (hs : s.IndexInv) (τ : Micros) : s.StaysWithin (s.deliverEdge τ) := by
  rcases deliverEdge_cases s τ with ⟨-, h⟩ | ⟨-, h⟩ <;> rw [h]
  · exact ⟨hs, rfl⟩
  · have called : (s.callPort (.nowMicroseconds τ)).IndexInv := hs.of_sameStorage ⟨rfl, rfl, rfl, rfl, rfl⟩
    exact classify_staysWithin (called.withCls (c := s.cls.stamp τ) rfl hs.cc_le) _

/-- The three operations that write the storage stay within it; the others leave it. -/
theorem exec_staysWithin (hs : s.IndexInv) (h : exec i s = .next t) : s.StaysWithin t := by
  by_cases writes : .result ∈ footprint i
  · rcases result_mem_footprint writes with rfl | rfl | ⟨τ, rfl⟩ <;> cases h
    · exact decodeClosed_staysWithin hs hs.closedFrame_le_cap
    · exact ⟨hs.publish hs.args_le, rfl⟩
    · exact deliverEdge_staysWithin hs τ
  · exact hs.staysWithin_of_sameStorage (exec_sameStorage writes h)

/-- Settles O50: the sequencer and a reserved word leave the storage, and each operation stays within it. -/
theorem stepKeepsIndexInv : Obligations.StepKeepsIndexInv := by
  intro s t hs h
  have taken (rest : List Input) : (s.withInputs rest).IndexInv := hs.of_sameStorage ⟨rfl, rfl, rfl, rfl, rfl⟩
  cases stepTo_of_step h with
  | wait rest => exact ⟨taken rest, rfl⟩
  | pulse rest p => exact (taken rest).staysWithin_of_sameStorage ⟨rfl, rfl, rfl, rfl, rfl⟩
  | burstEnd rest => exact (taken rest).staysWithin_of_sameStorage (endBurst_sameStorage _)
  | operation c rest i _ _ _ _ ran => exact exec_staysWithin (s := s.withInputs rest) (taken rest) ran
  | reserved w rest => exact (taken rest).staysWithin_of_sameStorage ⟨rfl, rfl, rfl, rfl, rfl⟩

/-! ### The intervals of a frame candidate (R180) -/

/-- The frame invariant reads the classifier only. -/
theorem State.FrameInv.of_cls (hs : s.FrameInv) (h : t.cls = s.cls) : t.FrameInv := by
  unfold State.FrameInv
  rw [h]
  exact hs

/-- A frame of one interval or none has no entry after its first. -/
theorem frameInv_of_cc_le_one (h : s.cls.cc ≤ 1) : s.FrameInv :=
  fun _ hpos hlt => absurd hpos (by omega)

/-- An ORDINARY interval is appended behind entries that the invariant bounds (R178). -/
theorem State.FrameInv.append (hs : s.FrameInv) {d : Micros} (ordinary : d.toNat ≤ Config.gapNormal)
    (h : t.cls = s.cls.append d) : t.FrameInv := by
  intro j hpos hlt
  rw [h, Classifier.append_cc] at hlt
  rw [h, Classifier.append_timings, List.getD_eq_getElem?_getD, List.getElem?_set]
  split
  · split
    · exact ordinary
    · exact Nat.zero_le _
  · next hne =>
    rw [← List.getD_eq_getElem?_getD]
    exact hs j hpos (by omega)

/-- Only the append branch leaves a frame of more than one interval (R175, R177, R178). -/
theorem classify_keeps_frameInv (hs : s.FrameInv) (d : Micros) : (s.classify d).FrameInv := by
  rcases classify_cases s d with ⟨-, -, -, h⟩ | ⟨-, -, h⟩ | ⟨-, -, h⟩ | ⟨-, -, -, h⟩ | ⟨-, ordinary, -, h⟩ <;> rw [h]
  · exact frameInv_of_cc_le_one Nat.le.refl
  · exact frameInv_of_cc_le_one Nat.le.refl
  · exact frameInv_of_cc_le_one Nat.le.refl
  · exact frameInv_of_cc_le_one (Nat.zero_le 1)
  · exact hs.append ordinary rfl

theorem deliverEdge_keeps_frameInv (hs : s.FrameInv) (τ : Micros) : (s.deliverEdge τ).FrameInv := by
  rcases deliverEdge_cases s τ with ⟨-, h⟩ | ⟨-, h⟩ <;> rw [h]
  · exact hs
  · exact classify_keeps_frameInv (by exact hs) _

/-- EDGE is the one operation that writes the classifier (R48). -/
theorem cls_mem_footprint (h : .cls ∈ footprint i) : ∃ τ, i = .edge τ := by
  cases i <;> simp_all [footprint]

theorem exec_keeps_frameInv (hs : s.FrameInv) (h : exec i s = .next t) : t.FrameInv := by
  by_cases writes : .cls ∈ footprint i
  · obtain ⟨τ, rfl⟩ := cls_mem_footprint writes
    cases h
    exact deliverEdge_keeps_frameInv hs τ
  · exact hs.of_cls (exec_footprint h .cls writes)

/-- Settles O51: every kind of step but a delivered edge leaves the classifier as it is. -/
theorem stepKeepsFrameInv : Obligations.StepKeepsFrameInv := by
  intro s t hs h
  cases stepTo_of_step h with
  | wait rest => exact hs.of_cls rfl
  | pulse rest p => exact hs.of_cls rfl
  | burstEnd rest => exact hs.of_cls (endBurst_sameStorage (s.withInputs rest)).cls
  | operation c rest i _ _ _ _ ran => exact exec_keeps_frameInv (s := s.withInputs rest) hs ran
  | reserved w rest => exact hs.of_cls rfl

end Sys2Proof.Machine
end

section
/-! PROOFS. The Edge Sample Classifier (spec/42_edge_classifier.md): one delivered edge in each of its branches (R172 to
R178), edges that change nothing or commit nothing (R170, R186), and the classifier healed by two gaps (R181). -/

namespace Sys2Proof.Machine

open Sys2Proof

variable {s : State} {d : Micros}

/-- Settles O35: the model's bounds are those numerals. -/
theorem syncPredicateBounds : Obligations.SyncPredicateBounds := isSync_iff

/-! ### The branches of the classifier -/

/-- The classifier's step as one equation, with the tests in the order of R173 to R178. -/
theorem classify_eq (s : State) (d : Micros) :
    s.classify d =
      if isSync d s.cls.prev = true then
        if s.cls.rpt = 0 ∧ Config.minEdgesHandoff ≤ s.cls.cc then
          { ({ s with cls := s.cls.countSync } : State).decodeClosed s.cls.closedFrame with
            cls := s.cls.countSync.openFrame d }
        else { s.record .repeatNotConfirmed with cls := s.cls.countSync.openFrame d }
      else if Config.gapNormal < d.toNat then { s.record .spuriousNoise with cls := s.cls.hardReset.openFrame d }
      else if s.cls.cc = s.cap then { s.record .bufferOverflow with cls := s.cls.hardReset }
      else { s with cls := s.cls.append d } := by
  rcases classify_cases s d with ⟨sync, first, edges, h⟩ | ⟨sync, unconfirmed, h⟩ | ⟨noSync, long, h⟩ |
    ⟨noSync, ordinary, full, h⟩ | ⟨noSync, ordinary, room, h⟩
  · rw [h, if_pos sync, if_pos ⟨first, edges⟩]
  · rw [h, if_pos sync, if_neg unconfirmed]
  · rw [h, if_neg (ne_true_of_eq_false noSync), if_pos long]
  · rw [h, if_neg (ne_true_of_eq_false noSync), if_neg ordinary.not_gt, if_pos full]
  · rw [h, if_neg (ne_true_of_eq_false noSync), if_neg ordinary.not_gt, if_neg room]

theorem classify_handoff (sync : isSync d s.cls.prev = true) (first : s.cls.rpt = 0)
    (edges : Config.minEdgesHandoff ≤ s.cls.cc) :
    s.classify d =
      { ({ s with cls := s.cls.countSync } : State).decodeClosed s.cls.closedFrame with
        cls := s.cls.countSync.openFrame d } := by
  rw [classify_eq, if_pos sync, if_pos ⟨first, edges⟩]

theorem classify_unconfirmed (sync : isSync d s.cls.prev = true)
    (unconfirmed : ¬(s.cls.rpt = 0 ∧ Config.minEdgesHandoff ≤ s.cls.cc)) :
    s.classify d = { s.record .repeatNotConfirmed with cls := s.cls.countSync.openFrame d } := by
  rw [classify_eq, if_pos sync, if_neg unconfirmed]

theorem classify_noise (noSync : isSync d s.cls.prev = false) (long : Config.gapNormal < d.toNat) :
    s.classify d = { s.record .spuriousNoise with cls := s.cls.hardReset.openFrame d } := by
  rw [classify_eq, if_neg (ne_true_of_eq_false noSync), if_pos long]

/-- An interval of at most `GAP_NORMAL` is no sync gap (R172). -/
theorem isSync_ne_true_of_ordinary (ordinary : d.toNat ≤ Config.gapNormal) (prev : Micros) : isSync d prev ≠ true := by
  rw [Ne, isSync_iff]
  simp only [Config.gapLong, Config.gapNormal] at *
  omega

theorem classify_overflow (ordinary : d.toNat ≤ Config.gapNormal) (full : s.cls.cc = s.cap) :
    s.classify d = { s.record .bufferOverflow with cls := s.cls.hardReset } := by
  rw [classify_eq, if_neg (isSync_ne_true_of_ordinary ordinary _), if_neg ordinary.not_gt, if_pos full]

theorem classify_append (ordinary : d.toNat ≤ Config.gapNormal) (room : s.cls.cc ≠ s.cap) :
    s.classify d = { s with cls := s.cls.append d } := by
  rw [classify_eq, if_neg (isSync_ne_true_of_ordinary ordinary _), if_neg ordinary.not_gt, if_neg room]

/-! ### One delivered edge -/

/-- The state that classifies a delivered edge: the timebase read and `LAST_T` written (R171, R174). -/
def State.stamped (s : State) (τ : Micros) : State :=
  { s.callPort (.nowMicroseconds τ) with cls := s.cls.stamp τ }

/-- A delivered edge is the classifier's step on its interval (R171). -/
theorem exec_edge_of_live (live : s.rxCtl.live = true) (τ : Micros) :
    exec (.edge τ) s = .next ((s.stamped τ).classify (τ - s.cls.lastT)) := by
  rcases deliverEdge_cases s τ with ⟨lost, -⟩ | ⟨-, h⟩
  · simp [live] at lost
  · exact congrArg Host.Outcome.next h

/-- Settles O36: the append branch. -/
theorem ordinaryIntervalIsAppended : Obligations.OrdinaryIntervalIsAppended := by
  intro s τ live ordinary room
  rw [exec_edge_of_live live, classify_append (s := s.stamped τ) ordinary room]
  rfl

/-- Settles O37: the overflow branch. -/
theorem fullBufferHardResets : Obligations.FullBufferHardResets := by
  intro s τ live ordinary full
  rw [exec_edge_of_live live, classify_overflow (s := s.stamped τ) ordinary full]
  rfl

/-- Settles O38: the NOISE branch. -/
theorem noiseIntervalOpensFrame : Obligations.NoiseIntervalOpensFrame := by
  intro s τ live long noSync
  rw [exec_edge_of_live live, classify_noise (s := s.stamped τ) noSync long]
  rfl

/-- Settles O39: the SYNC branch without handoff. -/
theorem unconfirmedSyncRestartsFrame : Obligations.UnconfirmedSyncRestartsFrame := by
  intro s τ live sync unconfirmed
  have noHandoff : ¬(s.cls.rpt = 0 ∧ 21 ≤ s.cls.cc) := fun ⟨first, edges⟩ =>
    unconfirmed.elim (· first) edges.not_gt
  rw [exec_edge_of_live live, classify_unconfirmed (s := s.stamped τ) sync noHandoff]
  rfl

/-! ### The verdicts of DECODE (spec/43_protocol_decoder.md R205, R208) -/

theorem decodeClosed_rejected {frame : List Micros} (h : decodeFrame s.rxTol frame = none) :
    s.decodeClosed frame = s.record .malformedFrame := by
  simp only [State.decodeClosed, h]

theorem decodeClosed_committed {frame : List Micros} {r : Accepted} (h : decodeFrame s.rxTol frame = some r)
    (gate : Config.minIntervalsCommit < r.frame.length) :
    s.decodeClosed frame = { s with commitArgs := r, latch := s.latch.publish r } := by
  simp only [State.decodeClosed, h, State.passResult, if_pos gate]
  rfl

theorem decodeClosed_belowGate {frame : List Micros} {r : Accepted} (h : decodeFrame s.rxTol frame = some r)
    (gate : ¬Config.minIntervalsCommit < r.frame.length) : s.decodeClosed frame = s.record .belowCommitGate := by
  simp only [State.decodeClosed, h, State.passResult, if_neg gate]

/-- The classifier after a first sync gap: `RPT` counts to 1 and the gap opens the next frame (R175). -/
theorem countSync_openFrame_of_first {c : Classifier} (first : c.rpt = 0) (d : Micros) :
    c.countSync.openFrame d = { timings := c.timings.set 0 d, cc := 1, lastT := c.lastT, rpt := 1 } := by
  have counted : satInc c.rpt = 1 := (satInc_eq_one _).mpr first
  rw [← counted]
  rfl

/-- Settles O40: the SYNC branch with handoff, whose frame gets one of the three verdicts of DECODE. -/
theorem confirmedSyncHandsFrameOff : Obligations.ConfirmedSyncHandsFrameOff := by
  intro s τ live sync first edges
  rw [exec_edge_of_live live, classify_handoff (s := s.stamped τ) sync first edges,
    countSync_openFrame_of_first (c := (s.stamped τ).cls) first]
  cases verdict : decodeFrame s.rxTol (s.cls.timings.take (s.cls.cc - 1)) with
  | none =>
    rw [decodeClosed_rejected (by exact verdict)]
    rfl
  | some r =>
    by_cases gate : 47 < r.frame.length
    · rw [decodeClosed_committed (by exact verdict) gate]
      simp only [if_pos gate]
      rfl
    · rw [decodeClosed_belowGate (by exact verdict) gate]
      simp only [if_neg gate]
      rfl

/-! ### Edges that change nothing, and edges that commit nothing -/

/-- Settles O21: each edge is taken and lost. -/
theorem edgesAreLostWhileNotLive : Obligations.EdgesAreLostWhileNotLive := by
  intro ts rest s live hin
  have lost := run_lostEdges live hin 0
  rwa [Nat.zero_add] at lost

/-- With `RPT` not 0 no interval is a first sync gap, so no frame is handed off (R176). -/
theorem classify_latch_of_rpt_ne_zero (later : s.cls.rpt ≠ 0) (d : Micros) :
    (s.classify d).latch = s.latch ∧ (s.classify d).commitArgs = s.commitArgs := by
  rcases classify_cases s d with ⟨-, first, -, -⟩ | ⟨-, -, h⟩ | ⟨-, -, h⟩ | ⟨-, -, -, h⟩ | ⟨-, -, -, h⟩
  · exact absurd first later
  all_goals rw [h]; exact ⟨rfl, rfl⟩

/-- Settles O41: a lost edge changes nothing, and a delivered one is no first sync gap. -/
theorem laterSyncsOfRunCommitNothing : Obligations.LaterSyncsOfRunCommitNothing := by
  intro s τ later
  refine ⟨s.deliverEdge τ, rfl, ?_⟩
  rcases deliverEdge_cases s τ with ⟨-, h⟩ | ⟨-, h⟩ <;> rw [h]
  · exact ⟨rfl, rfl⟩
  · exact classify_latch_of_rpt_ne_zero (s := s.stamped τ) later _

/-! ### Two gaps heal the classifier (R181) -/

/-- A long interval opens a frame, whether it is a sync gap or not (R175, R177). -/
theorem classify_long_cls (long : Config.gapNormal < d.toNat) (s : State) :
    ∃ rpt, (s.classify d).cls = { timings := s.cls.timings.set 0 d, cc := 1, lastT := s.cls.lastT, rpt := rpt } := by
  rcases classify_cases s d with ⟨-, -, -, h⟩ | ⟨-, -, h⟩ | ⟨-, -, h⟩ | ⟨-, ordinary, -⟩ | ⟨-, ordinary, -⟩
  · exact ⟨_, by rw [h]; rfl⟩
  · exact ⟨_, by rw [h]; rfl⟩
  · exact ⟨_, by rw [h]; rfl⟩
  · exact absurd long ordinary.not_gt
  · exact absurd long ordinary.not_gt

theorem headD_set_zero {l : List Micros} (h : 1 ≤ l.length) (d : Micros) : (l.set 0 d).headD 0 = d := by
  cases l with
  | nil => simp at h
  | cons x l => rfl

/-- Two long intervals, the second no sync gap after the first, leave the second as the opening gap of a fresh frame,
whatever the classifier held: the first stands at index 0 when the second is tested (R172, R177). -/
theorem exec_two_gaps {τ₁ τ₂ : Micros} (live : s.rxCtl.live = true) (nonempty : 1 ≤ s.cls.timings.length)
    (long₁ : Config.gapNormal < (τ₁ - s.cls.lastT).toNat) (long₂ : Config.gapNormal < (τ₂ - τ₁).toNat)
    (noSync : isSync (τ₂ - τ₁) (τ₁ - s.cls.lastT) = false) :
    ∃ s₁ s₂, exec (.edge τ₁) s = .next s₁ ∧ exec (.edge τ₂) s₁ = .next s₂ ∧
      s₂.cls = { timings := s.cls.timings.set 0 (τ₂ - τ₁), cc := 1, lastT := τ₂, rpt := 0 } := by
  have first := exec_edge_of_live live τ₁
  obtain ⟨rpt, opened⟩ := classify_long_cls long₁ (s.stamped τ₁)
  have reception := exec_footprint first .rxCtl (by simp [footprint])
  generalize (s.stamped τ₁).classify (τ₁ - s.cls.lastT) = s₁ at first opened reception
  have timings : s₁.cls.timings = s.cls.timings.set 0 (τ₁ - s.cls.lastT) := by rw [opened]; rfl
  have lastT : s₁.cls.lastT = τ₁ := by rw [opened]; rfl
  have second := noiseIntervalOpensFrame s₁ τ₂ (reception ▸ live)
  rw [lastT, timings, headD_set_zero nonempty, List.set_set] at second
  exact ⟨s₁, _, first, second long₂ noSync, rfl⟩

/-- Settles O42: both intervals are long, and only the first is at least `GAP_LONG`. -/
theorem twoGapsHealClassifier : Obligations.TwoGapsHealClassifier := by
  intro s live index
  have interval₁ : s.cls.lastT + 200000 - s.cls.lastT = 200000 := by bv_omega
  have interval₂ : s.cls.lastT + 210000 - (s.cls.lastT + 200000) = 10000 := by bv_omega
  have nonempty : 1 ≤ s.cls.timings.length := index.timings_length ▸ index.cap_pos
  have healed := exec_two_gaps (τ₁ := s.cls.lastT + 200000) (τ₂ := s.cls.lastT + 210000) live nonempty
  rw [interval₁, interval₂] at healed
  exact healed (by decide) (by decide) (by decide)

end Sys2Proof.Machine
end

section
/-! PROOFS. A frame too long for the buffer (spec/42_edge_classifier.md R178, R187): the run of its edges, from the opening
gap to the overflow. -/

namespace Sys2Proof.Machine

open Sys2Proof

variable {s : State}

/-- The timestamps of the edges that end the intervals `ds` after `t0`. -/
def arrivals (t0 : Micros) (ds : List Nat) : List Micros :=
  (List.range ds.length).map fun k => t0 + BitVec.ofNat 32 (ds.take (k + 1)).sum

theorem arrivals_cons (t0 : Micros) (d : Nat) (ds : List Nat) :
    arrivals t0 (d :: ds) = (t0 + BitVec.ofNat 32 d) :: arrivals (t0 + BitVec.ofNat 32 d) ds := by
  simp [arrivals, List.range_succ_eq_map, BitVec.ofNat_add, BitVec.add_assoc]

/-- The interval that an edge `d` µs after the last one measures (R171). -/
theorem interval_toNat_le (t0 : Micros) (d : Nat) : (t0 + BitVec.ofNat 32 d - t0).toNat ≤ d := by
  rw [BitVec.add_comm, BitVec.add_sub_cancel, BitVec.toNat_ofNat]
  exact Nat.mod_le _ _

/-- A write behind the first entry keeps the first. -/
theorem headD_set_of_pos {l : List Micros} {k : Nat} (hk : 1 ≤ k) (d : Micros) : (l.set k d).headD 0 = l.headD 0 := by
  obtain ⟨k, rfl⟩ := Nat.exists_eq_add_of_le' hk
  cases l <;> rfl

/-- An edge that stands first is the next step, in a burst too (spec/20_memory.md R77). -/
theorem step_edge {τ : Micros} {rest : List Input} (hin : s.inputs = .code (.edge τ) :: rest) :
    step s = exec (.edge τ) (s.withInputs rest) :=
  stepRunsDecodedCode s _ rest _ hin (.inr rfl) rfl

/-- ORDINARY intervals that are one more than the free entries fill the buffer and overflow it with the last: each but
the last is appended behind the opening gap, and the last finds `CC = CAP` (R178). -/
theorem run_overlong (ds : List Nat) (live : s.rxCtl.live = true) (opened : 1 ≤ s.cls.cc) (index : s.cls.cc ≤ s.cap)
    (overlong : s.cls.cc + ds.length = s.cap + 1) (ordinary : ∀ d ∈ ds, d ≤ 5000)
    (hin : s.inputs = edgeInputs (arrivals s.cls.lastT ds)) :
    ∃ t, Sys2Proof.core.run ds.length s = .next t ∧ t.inputs = [] ∧ t.cls.cc = 0 ∧ t.cls.rpt = 0 ∧
      t.cls.timings.headD 0 = s.cls.timings.headD 0 ∧ t.latch = s.latch := by
  induction ds generalizing s with
  | nil => exact absurd overlong (by simp; omega)
  | cons d ds ih =>
    rw [List.forall_mem_cons] at ordinary
    obtain ⟨hd, hds⟩ := ordinary
    rw [List.length_cons] at overlong ⊢
    rw [arrivals_cons] at hin
    have interval := (interval_toNat_le s.cls.lastT d).trans hd
    by_cases full : s.cls.cc = s.cap
    · obtain rfl : ds = [] := List.eq_nil_of_length_eq_zero (by omega)
      have last := (step_edge hin).trans (fullBufferHardResets (s.withInputs []) _ live interval full)
      exact ⟨_, run_succ_of_step last 0, rfl, rfl, rfl, rfl, rfl⟩
    · have appended := (step_edge hin).trans (ordinaryIntervalIsAppended (s.withInputs _) _ live interval full)
      rw [run_succ_of_step appended,
        ← headD_set_of_pos opened (s.cls.lastT + BitVec.ofNat 32 d - s.cls.lastT)]
      have index' : s.cls.cc + 1 ≤ s.cap := by omega
      have overlong' : s.cls.cc + 1 + ds.length = s.cap + 1 := by omega
      exact ih live (Nat.le_add_left _ _) index' overlong' hds rfl

/-- Settles O43: after the opening gap `CAP - 1` entries are free. -/
theorem overlongFrameIsNeverDecoded : Obligations.OverlongFrameIsNeverDecoded := by
  intro s ds t0 live index opened hlen ordinary hlast hin
  subst hlast
  rw [← hlen] at hin ⊢
  exact run_overlong ds live opened.ge index.cc_le (by omega) ordinary hin

end Sys2Proof.Machine
end

section
/-! PROOFS. The Protocol Decoder (spec/43_protocol_decoder.md): the windows of a bit (R202, R203), the walk over the
pairs of a frame and the value it assembles (R204 to R207), the verdicts of DECODE (R200, R208), and the frame of a
transmitted code (R210). -/

namespace Sys2Proof.Machine

open Sys2Proof

/-! ### The windows of a bit (R202, R203) -/

/-- The window test over the integers, where the lower bound may be negative (R202). -/
theorem near_iff_int (tol : Nat) (x : Micros) (c : Nat) :
    near tol x c = true ↔ (c : Int) - tol ≤ x.toNat ∧ (x.toNat : Int) ≤ c + tol := decide_eq_true_iff

theorem classifyPair_eq_false_iff (period tol : Nat) (a b : Micros) :
    classifyPair period tol a b = some false ↔ near tol a period = true ∧ near tol b (3 * period) = true := by
  unfold classifyPair
  rw [← Bool.and_eq_true]
  split
  · next bit0 => simp [bit0]
  · next bit0 => split <;> simp [bit0]

theorem classifyPair_eq_true_iff (period tol : Nat) (a b : Micros) :
    classifyPair period tol a b = some true ↔
      ¬(near tol a period = true ∧ near tol b (3 * period) = true) ∧
        near tol a (3 * period) = true ∧ near tol b period = true := by
  unfold classifyPair
  rw [← Bool.and_eq_true, ← Bool.and_eq_true]
  split
  · next bit0 => simp [bit0]
  · next bit0 => split <;> simp_all

/-- Settles O44: the two tests in their order; an interval in both windows puts their centres, `2 × period` apart, at
most `2 × tol` apart. -/
theorem pairClassificationWindows : Obligations.PairClassificationWindows := by
  intro period tol a b isNear
  refine ⟨?_, ?_, ?_⟩
  · rw [classifyPair_eq_false_iff, near_iff_int, near_iff_int]
  · rw [classifyPair_eq_true_iff]
    simp only [near_iff_int, isNear]
  · rintro narrow ⟨⟨-, short⟩, ⟨long, -⟩⟩
    omega

/-! ### The walk over the pairs and the value (R204 to R207) -/

/-- `((code << 1) | bit) mod 2^32` over the naturals (R206). -/
theorem shiftIn_toNat (code : BitVec 32) (bit : Bool) :
    (shiftIn code bit).toNat = (2 * code.toNat + bit.toNat) % 2 ^ 32 := by
  have disjoint : code <<< 1 &&& (if bit then 1 else 0) = 0 := by
    cases bit
    · simp
    · ext k
      cases k <;> simp
  rw [shiftIn, ← BitVec.add_eq_or_of_and_eq_zero _ _ disjoint]
  cases bit <;> simp [Nat.shiftLeft_eq, Nat.mul_comm]

/-- The bits read most significant first, modulo `2^32` at the end or at every bit (R206). -/
theorem foldl_shiftIn_toNat (bits : List Bool) {code : BitVec 32} {c : Nat} (h : code.toNat = c % 2 ^ 32) :
    (bits.foldl shiftIn code).toNat = (bits.foldl (fun c b => 2 * c + b.toNat) c) % 2 ^ 32 := by
  induction bits generalizing code c with
  | nil => exact h
  | cons b bits ih =>
    have shifted : (shiftIn code b).toNat = (2 * c + b.toNat) % 2 ^ 32 := by
      rw [shiftIn_toNat, h]
      omega
    exact ih shifted

/-- The entries of a list of pairs, in order: what follows the sync in a frame of odd length (R204). -/
def pairEntries (pairs : List (Micros × Micros)) : List Micros := pairs.flatMap fun q => [q.1, q.2]

theorem length_pairEntries (pairs : List (Micros × Micros)) : (pairEntries pairs).length = 2 * pairs.length := by
  simp [pairEntries, Nat.mul_comm]

theorem decodePairs_cons (period tol : Nat) (q : Micros × Micros) (pairs : List (Micros × Micros)) (code : BitVec 32) :
    decodePairs period tol (pairEntries (q :: pairs)) code =
      (classifyPair period tol q.1 q.2).bind fun bit =>
        decodePairs period tol (pairEntries pairs) (shiftIn code bit) := by
  have entries : pairEntries (q :: pairs) = q.1 :: q.2 :: pairEntries pairs := rfl
  rw [entries, decodePairs]
  cases classifyPair period tol q.1 q.2 <;> rfl

/-- When every pair is a bit, the bits are shifted in, in their order (R206). -/
theorem decodePairs_eq_some {period tol : Nat} {pairs : List (Micros × Micros)} {bits : List Bool}
    (classified : (pairs.map fun q => classifyPair period tol q.1 q.2) = bits.map some) (code : BitVec 32) :
    decodePairs period tol (pairEntries pairs) code = some (bits.foldl shiftIn code) := by
  induction pairs generalizing bits code with
  | nil =>
    obtain rfl : bits = [] := List.map_eq_nil_iff.mp classified.symm
    rfl
  | cons q pairs ih =>
    obtain ⟨bit, bits, rfl, isBit, rest⟩ := List.map_eq_cons_iff.mp classified.symm
    have isBit : classifyPair period tol q.1 q.2 = some bit := isBit.symm
    rw [decodePairs_cons, isBit]
    exact ih rest.symm _

/-- One pair of neither bit rejects the walk, wherever it stands (R205). -/
theorem decodePairs_eq_none {period tol : Nat} {pairs : List (Micros × Micros)}
    (neither : none ∈ pairs.map fun q => classifyPair period tol q.1 q.2) (code : BitVec 32) :
    decodePairs period tol (pairEntries pairs) code = none := by
  induction pairs generalizing code with
  | nil => cases neither
  | cons q pairs ih =>
    rw [decodePairs_cons]
    cases hq : classifyPair period tol q.1 q.2 with
    | none => rfl
    | some bit =>
      have later : none ∈ pairs.map fun q => classifyPair period tol q.1 q.2 := by simpa [hq] using neither
      exact ih later _

/-- A frame of even length is rejected before any pair is read (R204). -/
theorem decodeFrame_of_even {frame : List Micros} (even : frame.length % 2 = 0) (rxTol : BitVec 8) :
    decodeFrame rxTol frame = none := if_pos even

/-- A frame of odd length is a sync gap and the entries of its pairs, and its verdict is that of the walk (R204, R207).
-/
theorem decodeFrame_gap_pairs (rxTol : BitVec 8) (gap : Micros) (pairs : List (Micros × Micros)) :
    decodeFrame rxTol (gap :: pairEntries pairs) =
      (decodePairs (gap.toNat / 31) (tolerance (gap.toNat / 31) rxTol) (pairEntries pairs) 0).map fun code =>
        { value := code, bitLen := pairs.length, delay := BitVec.ofNat 32 (gap.toNat / 31)
          frame := gap :: pairEntries pairs } := by
  have odd : ¬(gap :: pairEntries pairs).length % 2 = 0 := by
    rw [List.length_cons, length_pairEntries]
    omega
  have half : (gap :: pairEntries pairs).length / 2 = pairs.length := by
    rw [List.length_cons, length_pairEntries]
    omega
  rw [decodeFrame]
  simp only [if_neg odd, half]
  rfl

/-- Settles O45: the walk reads the bits of the pairs or rejects the frame. -/
theorem frameDecodesToItsBits : Obligations.FrameDecodesToItsBits := by
  intro rxTol gap pairs period tol frame
  have verdict : decodeFrame rxTol frame = (decodePairs period tol (pairEntries pairs) 0).map _ :=
    decodeFrame_gap_pairs rxTol gap pairs
  refine ⟨fun bits classified => ?_, fun neither => ?_⟩
  · rw [decodePairs_eq_some classified] at verdict
    refine ⟨_, verdict, foldl_shiftIn_toNat bits rfl, rfl, ?_, rfl⟩
    exact Nat.mod_eq_of_lt ((Nat.div_le_self _ _).trans_lt gap.isLt)
  · rw [decodePairs_eq_none neither] at verdict
    exact verdict

/-! ### The verdicts of DECODE (R200, R205, R208) -/

/-- Settles O46: a rejection and a frame below the gate leave a trace entry only, a longer accepted frame is committed.
-/
theorem decodeRunsToItsVerdict : Obligations.DecodeRunsToItsVerdict := by
  intro s frame
  refine ⟨fun even => decodeFrame_of_even even s.rxTol, fun rejected => ?_, fun r accepted => ?_⟩
  · exact congrArg Host.Outcome.next (decodeClosed_rejected rejected)
  · obtain ⟨-, sameFrame, -⟩ := decodeFrame_some accepted
    refine ⟨fun short => ?_, fun long => ?_⟩
    · have gate : ¬Config.minIntervalsCommit < r.frame.length := sameFrame ▸ short.not_gt
      exact congrArg Host.Outcome.next (decodeClosed_belowGate accepted gate)
    · have gate : Config.minIntervalsCommit < r.frame.length := sameFrame ▸ long
      exact congrArg Host.Outcome.next (decodeClosed_committed accepted gate)

/-! ### The frame of a transmitted code (R210) -/

/-- The two intervals of a protocol-1 bit at pulse length `plen` (spec/40_pulse_encoder.md R120, R121). -/
def bitPair (plen : BitVec 32) (bit : Bool) : Micros × Micros :=
  if bit then (BitVec.ofNat 32 (3 * plen.toNat), plen) else (plen, BitVec.ofNat 32 (3 * plen.toNat))

/-- A receiver that knows the pulse length reads the bit at every tolerance below 200 percent: both intervals are on
their centres, and the pair of a bit 1 fails the bit-0 test because `tol < 2 × period` (R203, R210). -/
theorem classifyPair_bitPair {plen : BitVec 32} {rxTol : BitVec 8} (pos : 1 ≤ plen.toNat)
    (fits : 3 * plen.toNat < 2 ^ 32) (tol_le : rxTol.toNat ≤ 199) (bit : Bool) :
    classifyPair plen.toNat (tolerance plen.toNat rxTol) (bitPair plen bit).1 (bitPair plen bit).2 = some bit := by
  have narrow : tolerance plen.toNat rxTol < 2 * plen.toNat := by
    have scaled := Nat.mul_le_mul_left plen.toNat tol_le
    unfold tolerance
    omega
  have long : (BitVec.ofNat 32 (3 * plen.toNat)).toNat = 3 * plen.toNat := Nat.mod_eq_of_lt fits
  cases bit
  · rw [classifyPair_eq_false_iff, near_iff, near_iff]
    simp only [bitPair, Bool.false_eq_true, if_false, long]
    omega
  · rw [classifyPair_eq_true_iff]
    simp only [near_iff, bitPair, if_true, long]
    omega

/-- The bits of a code, the most significant first (spec/41_transmission_controller.md R142). -/
def codeBits (value : BitVec 32) (len : Nat) : List Bool := (List.range len).reverse.map value.getLsbD

theorem length_codeBits (value : BitVec 32) (len : Nat) : (codeBits value len).length = len := by simp [codeBits]

/-- Reading the bits of a code most significant first gives back its low bits (R206). -/
theorem foldl_codeBits (value : BitVec 32) (len c : Nat) :
    (codeBits value len).foldl (fun c b => 2 * c + b.toNat) c = c * 2 ^ len + value.toNat % 2 ^ len := by
  induction len generalizing c with
  | zero => simp [codeBits, Nat.mod_one]
  | succ len ih =>
    have bits : codeBits value (len + 1) = value.getLsbD len :: codeBits value len := by
      simp [codeBits, List.range_succ]
    have top : (value.getLsbD len).toNat = value.toNat / 2 ^ len % 2 := Nat.toNat_testBit _ _
    rw [bits, List.foldl_cons, ih, Nat.mod_pow_succ, top]
    ring

/-- The intervals of the bits of a code at pulse length `plen`, in the order of their transmission. -/
def codeIntervals (value : BitVec 32) (len : Nat) (plen : BitVec 32) : List Micros :=
  pairEntries ((codeBits value len).map (bitPair plen))

theorem length_codeIntervals (value : BitVec 32) (len : Nat) (plen : BitVec 32) :
    (codeIntervals value len plen).length = 2 * len := by
  rw [codeIntervals, length_pairEntries, List.length_map, length_codeBits]

/-- The encoder's bit pulses of a code last those intervals (spec/40_pulse_encoder.md R120, R121). -/
theorem map_duration_bitPulses (value : BitVec 32) (len : Nat) (plen : BitVec 32) :
    (((List.range len).reverse.map (bitOp value)).flatMap fun u => enc u (some ⟨1, plen, Config.preset1⟩)).map
      (fun p => BitVec.ofNat 32 p.duration) = codeIntervals value len plen := by
  have pair (k : Nat) : (enc (bitOp value k) (some ⟨1, plen, Config.preset1⟩)).map
      (fun p => BitVec.ofNat 32 p.duration) =
        [(bitPair plen (value.getLsbD k)).1, (bitPair plen (value.getLsbD k)).2] := by
    cases hk : value.getLsbD k <;>
      simp [bitOp, hk, enc, encPair, zeroPair, onePair, pulsePair, Params.duration, Config.preset1, bitPair]
  simp only [codeIntervals, pairEntries, codeBits, List.flatMap_map, List.map_flatMap, pair]

/-- The frame of a code, opened by a sync gap of 31 pulse lengths, decodes to the code (R210). -/
theorem decodeFrame_codeIntervals {value : BitVec 32} {len : Nat} {plen : BitVec 32} {rxTol : BitVec 8}
    (inRange : value.toNat < 2 ^ len) (pos : 1 ≤ plen.toNat) (fits : 31 * plen.toNat < 2 ^ 32)
    (tol_le : rxTol.toNat ≤ 199) :
    decodeFrame rxTol (BitVec.ofNat 32 (31 * plen.toNat) :: codeIntervals value len plen) =
      some { value := value, bitLen := len, delay := plen
             frame := BitVec.ofNat 32 (31 * plen.toNat) :: codeIntervals value len plen } := by
  have gap : (BitVec.ofNat 32 (31 * plen.toNat)).toNat / 31 = plen.toNat := by
    rw [BitVec.toNat_ofNat, Nat.mod_eq_of_lt fits, Nat.mul_div_cancel_left _ (by decide)]
  have classified : (((codeBits value len).map (bitPair plen)).map fun q =>
      classifyPair plen.toNat (tolerance plen.toNat rxTol) q.1 q.2) = (codeBits value len).map some := by
    rw [List.map_map]
    exact List.map_congr_left fun bit _ => classifyPair_bitPair pos (by omega) tol_le bit
  have read : (codeBits value len).foldl shiftIn 0 = value := by
    apply BitVec.eq_of_toNat_eq
    rw [foldl_shiftIn_toNat _ (c := 0) rfl, foldl_codeBits, Nat.zero_mul, Nat.zero_add, Nat.mod_eq_of_lt inRange,
      Nat.mod_eq_of_lt value.isLt]
  rw [codeIntervals, decodeFrame_gap_pairs, gap, decodePairs_eq_some classified, read, List.length_map, length_codeBits,
    BitVec.ofNat_toNat, BitVec.setWidth_eq]
  rfl

/-- Settles O47: the encoder's pulses last the intervals of the code, which decode to it. -/
theorem transmittedFrameDecodesToItsCode : Obligations.TransmittedFrameDecodesToItsCode := by
  intro value len plen rxTol _ _ inRange pos fits tol_le bitPulses frame
  have entries : frame = BitVec.ofNat 32 (31 * plen.toNat) :: codeIntervals value len plen :=
    congrArg _ (map_duration_bitPulses value len plen)
  rw [entries]
  exact decodeFrame_codeIntervals inRange pos fits tol_le

end Sys2Proof.Machine
end

section
/-! PROOFS. The round trip of spec/43_protocol_decoder.md R210: a whole burst as the intervals between its edges, what
the classifier holds after each of them (spec/42_edge_classifier.md R184, R185), and the latch at the end. -/

namespace Sys2Proof.Machine

open Sys2Proof

variable {s : State} {l : Latch} {rpt : BitVec 8} {gap d : Micros} {rest ds : List Micros}

/-! ### A run of delivered edges as a fold over their intervals -/

/-- The state that classifies the next edge, when it comes `d` µs after the last one: the edge is taken from the inputs
and its time is stamped (R171, R174). -/
def State.stampedNext (s : State) (d : Micros) : State := (s.withInputs s.inputs.tail).stamped (s.cls.lastT + d)

/-- The state after the next edge, when it comes `d` µs after the last one; `step_hear` says that it is a step. -/
def State.hear (s : State) (d : Micros) : State := (s.stampedNext d).classify d

/-- The classifier does not touch the inputs yet to come. -/
theorem classify_inputs (s : State) (d : Micros) : (s.classify d).inputs = s.inputs := by
  rcases classify_cases s d with ⟨-, -, -, h⟩ | ⟨-, -, h⟩ | ⟨-, -, h⟩ | ⟨-, -, -, h⟩ | ⟨-, -, -, h⟩ <;> rw [h]
  case inl =>
    rcases decodeClosed_cases { s with cls := s.cls.countSync } s.cls.closedFrame with ⟨e, he⟩ | ⟨r, -, -, he⟩
    · rw [he]
      rfl
    · rw [he]
  all_goals rfl

/-- `LAST_T` is written before the interval is classified and not again (R171, R174). -/
theorem classify_lastT (s : State) (d : Micros) : (s.classify d).cls.lastT = s.cls.lastT := by
  rcases classify_cases s d with ⟨-, -, -, h⟩ | ⟨-, -, h⟩ | ⟨-, -, h⟩ | ⟨-, -, -, h⟩ | ⟨-, -, -, h⟩ <;> rw [h] <;> rfl

theorem hear_inputs (s : State) (d : Micros) : (s.hear d).inputs = s.inputs.tail := classify_inputs _ _

theorem hear_lastT (s : State) (d : Micros) : (s.hear d).cls.lastT = s.cls.lastT + d := classify_lastT _ _

theorem hear_rxCtl (s : State) (d : Micros) : (s.hear d).rxCtl = s.rxCtl := classify_keeps _ d .rxCtl (by simp)

theorem step_hear {inputs : List Input} (live : s.rxCtl.live = true)
    (hin : s.inputs = .code (.edge (s.cls.lastT + d)) :: inputs) : step s = .next (s.hear d) := by
  have delivered := exec_edge_of_live (s := s.withInputs inputs) live (s.cls.lastT + d)
  rw [State.withInputs_cls, BitVec.add_comm, BitVec.add_sub_cancel, BitVec.add_comm] at delivered
  rw [step_edge hin, delivered, State.hear, State.stampedNext, hin]
  rfl

theorem length_edgeInputs_edgeTimes (τ : Micros) (ps : List Pulse) :
    (edgeInputs (edgeTimes τ ps)).length = ps.length := by
  rw [edgeInputs, List.length_map]
  induction ps generalizing τ with
  | nil => rfl
  | cons p ps ih => exact congrArg (· + 1) (ih _)

/-- The edges of a pulse list, the first `d` µs after the last edge, are heard as `d` and then the duration of each
pulse but the last, whose end is no edge. -/
theorem run_edgeTimes (ps : List Pulse) (live : s.rxCtl.live = true)
    (hin : s.inputs = edgeInputs (edgeTimes (s.cls.lastT + d) ps)) :
    ∃ t, t = ((d :: ps.map fun p => BitVec.ofNat 32 p.duration).dropLast).foldl State.hear s ∧ t.inputs = [] ∧
      Sys2Proof.core.run ps.length s = .next t := by
  induction ps generalizing s d with
  | nil => exact ⟨s, rfl, hin, rfl⟩
  | cons p ps ih =>
    have later : (s.hear d).inputs =
        edgeInputs (edgeTimes ((s.hear d).cls.lastT + BitVec.ofNat 32 p.duration) ps) := by
      rw [hear_inputs, hear_lastT, hin]
      rfl
    obtain ⟨t, heard, taken, ran⟩ := ih ((hear_rxCtl s d).symm ▸ live) later
    exact ⟨t, heard, taken, (run_succ_of_step (step_hear live hin) _).trans ran⟩

/-! ### What the classifier holds while it hears a burst -/

/-- A receiver of R210 (`CAP = 67`, tolerance below 200 percent) with the frame candidate `gap :: rest` open: its latch
and repeat counter, and the candidate in `TIMINGS[0 .. CC-1]`. -/
structure State.Listens (s : State) (l : Latch) (rpt : BitVec 8) (gap : Micros) (rest : List Micros) : Prop where
  cap : s.cap = 67
  size : s.cls.timings.length = 67
  tol : s.rxTol.toNat ≤ 199
  latch : s.latch = l
  rpt : s.cls.rpt = rpt
  cc : s.cls.cc = rest.length + 1
  candidate : s.cls.timings.take (rest.length + 1) = gap :: rest

/-- Writing an entry makes it the last of the entries up to it. -/
theorem take_succ_set {k : Nat} {timings : List Micros} (hk : k < timings.length) (d : Micros) :
    (timings.set k d).take (k + 1) = timings.take k ++ [d] := by
  rw [List.take_succ_eq_append_getElem (by rwa [List.length_set]), List.getElem_set_self, List.take_set_of_le le_rfl]

/-- A classifier with a candidate of one interval, as every branch but ORDINARY leaves it (R175, R177). -/
theorem State.Listens.of_opened {timings : List Micros} {τ : Micros} (cap : s.cap = 67) (size : timings.length = 67)
    (tol : s.rxTol.toNat ≤ 199) (latch : s.latch = l)
    (opened : s.cls = { timings := timings.set 0 gap, cc := 1, lastT := τ, rpt := rpt }) : s.Listens l rpt gap [] := by
  refine ⟨cap, ?_, tol, latch, ?_, ?_, ?_⟩ <;> rw [opened]
  · exact List.length_set.trans size
  · rfl
  · exact take_succ_set (k := 0) (size ▸ Nat.zero_lt_succ _) gap

/-- `prev` is the gap that opened the candidate (R172). -/
theorem State.Listens.prev (h : s.Listens l rpt gap rest) : s.cls.prev = gap := by
  have head := congrArg (fun c => c.headD 0) h.candidate
  cases timings : s.cls.timings <;> simp_all [Classifier.prev]

/-- The closed frame is the candidate without its last interval, which belongs to the sync pulse (R176). -/
theorem State.Listens.closedFrame (h : s.Listens l rpt gap (rest ++ [d])) : s.cls.closedFrame = gap :: rest := by
  have shorter := congrArg (List.take (rest.length + 1)) h.candidate
  rw [List.take_take, List.length_append, List.length_singleton, Nat.min_eq_left (by omega)] at shorter
  rw [Classifier.closedFrame, h.cc, List.length_append, List.length_singleton, Nat.add_sub_cancel, shorter]
  simp

/-- Any long interval opens a frame, from any classifier state (R175, R177). -/
theorem hear_long (index : s.IndexInv) (hcap : s.cap = 67) (tol : s.rxTol.toNat ≤ 199)
    (long : Config.gapNormal < d.toNat) : ∃ l rpt, (s.hear d).Listens l rpt d [] := by
  have taken : ((s.withInputs s.inputs.tail).callPort (.nowMicroseconds (s.cls.lastT + d))).IndexInv :=
    index.of_sameStorage ⟨rfl, rfl, rfl, rfl, rfl⟩
  have indexed : (s.stampedNext d).IndexInv := taken.withCls (c := s.cls.stamp _) rfl index.cc_le
  obtain ⟨-, sameCap⟩ := classify_staysWithin indexed d
  obtain ⟨rpt, opened⟩ := classify_long_cls long (s.stampedNext d)
  have sameTol : (s.hear d).rxTol = s.rxTol := classify_keeps _ d .rxTol (by simp)
  exact ⟨_, rpt, .of_opened (sameCap.trans hcap) (index.timings_length.trans hcap) (sameTol ▸ tol) rfl opened⟩

/-- An ORDINARY interval is appended while there is room (R178). -/
theorem State.Listens.hear_ordinary (h : s.Listens l rpt gap rest) (ordinary : d.toNat ≤ Config.gapNormal)
    (room : rest.length < 66) : (s.hear d).Listens l rpt gap (rest ++ [d]) := by
  have free : s.cls.cc ≠ s.cap := by
    rw [h.cc, h.cap]
    omega
  rw [State.hear, classify_append (s := s.stampedNext d) ordinary free]
  refine ⟨h.cap, List.length_set.trans h.size, h.tol, h.latch, h.rpt, ?_, ?_⟩
  · exact (congrArg (· + 1) h.cc).trans (by simp)
  · have written := take_succ_set (k := s.cls.cc) (timings := s.cls.timings) (by rw [h.cc, h.size]; omega) d
    rw [h.cc, h.candidate] at written
    rw [Classifier.append_timings, List.length_append]
    exact h.cc ▸ written

/-- A long interval that is no sync gap resets the classifier and opens a frame (R177). -/
theorem State.Listens.hear_noise (h : s.Listens l rpt gap rest) (noSync : isSync d gap = false)
    (long : Config.gapNormal < d.toNat) : (s.hear d).Listens l 0 d [] := by
  rw [← h.prev] at noSync
  rw [State.hear, classify_noise (s := s.stampedNext d) noSync long]
  exact .of_opened h.cap h.size h.tol h.latch rfl

/-- A saturated counter does not wrap to 0, so a run of sync gaps stays confirmed (spec/10_state.md R39). -/
theorem satInc_ne_zero (rpt : BitVec 8) : satInc rpt ≠ 0 := by
  intro wrapped
  have counted := satInc_toNat rpt
  have zero : (0 : BitVec 8).toNat = 0 := rfl
  rw [wrapped, zero] at counted
  omega

/-- A later sync gap of a run commits nothing and leaves the counter above 0 (R175, R176). -/
theorem State.Listens.hear_laterSync (h : s.Listens l rpt gap rest) (sync : isSync d gap = true) (later : rpt ≠ 0) :
    (s.hear d).Listens l (satInc rpt) d [] := by
  rw [← h.prev] at sync
  rw [← h.rpt] at later ⊢
  rw [State.hear, classify_unconfirmed (s := s.stampedNext d) sync fun first => later first.1]
  exact .of_opened h.cap h.size h.tol h.latch rfl

/-- The first sync gap of a run hands the frame off; an accepted frame above the gate is committed (R176, R208). -/
theorem State.Listens.hear_firstSync {last : Micros} {r : Accepted} (h : s.Listens l 0 gap (rest ++ [last]))
    (sync : isSync d gap = true) (edges : Config.minEdgesHandoff ≤ rest.length + 2)
    (accepted : decodeFrame s.rxTol (gap :: rest) = some r) (gate : Config.minIntervalsCommit < r.frame.length) :
    (s.hear d).Listens (l.publish r) 1 d [] := by
  rw [← h.prev] at sync
  have enough : Config.minEdgesHandoff ≤ s.cls.cc := by
    rw [h.cc, List.length_append]
    exact edges
  rw [← h.closedFrame] at accepted
  rw [State.hear, classify_handoff (s := s.stampedNext d) sync h.rpt enough,
    decodeClosed_committed (by exact accepted) gate]
  have counted := countSync_openFrame_of_first (c := (s.stampedNext d).cls) h.rpt d
  exact .of_opened h.cap h.size h.tol (congrArg (Latch.publish · r) h.latch) counted

/-- ORDINARY intervals are appended in their order while there is room. -/
theorem State.Listens.foldl_ordinary (h : s.Listens l rpt gap rest) (ordinary : ∀ d ∈ ds, d.toNat ≤ Config.gapNormal)
    (room : rest.length + ds.length ≤ 66) : (ds.foldl State.hear s).Listens l rpt gap (rest ++ ds) := by
  induction ds generalizing s rest with
  | nil => rwa [List.append_nil]
  | cons d ds ih =>
    rw [List.forall_mem_cons] at ordinary
    obtain ⟨hd, hds⟩ := ordinary
    rw [List.length_cons] at room
    have appended := h.hear_ordinary hd (by omega)
    have all := ih appended hds (by rw [List.length_append, List.length_singleton]; omega)
    rwa [List.append_assoc] at all

/-! ### The intervals of a burst -/

/-- The ranges of R210 for a protocol-1 transmission of `len` bits at pulse length `plen`. -/
structure Receivable (value : BitVec 32) (len : Nat) (plen : BitVec 32) : Prop where
  len_ge : 24 ≤ len
  len_le : len ≤ 32
  inRange : value.toNat < 2 ^ len
  plen_ge : 162 ≤ plen.toNat
  plen_le : plen.toNat ≤ 1666

/-- The sync LOW of a transmission, 31 pulse lengths (spec/40_pulse_encoder.md R122). -/
def syncGap (plen : BitVec 32) : Micros := BitVec.ofNat 32 (31 * plen.toNat)

/-- The intervals of one repetition up to its sync LOW: the bits and the sync HIGH. -/
def repetitionBody (value : BitVec 32) (len : Nat) (plen : BitVec 32) : List Micros :=
  codeIntervals value len plen ++ [plen]

/-- The intervals of one repetition. -/
def repetition (value : BitVec 32) (len : Nat) (plen : BitVec 32) : List Micros :=
  repetitionBody value len plen ++ [syncGap plen]

theorem map_duration_burst (value : BitVec 32) (len n : Nat) (plen : BitVec 32) :
    (burst (codeFrameOps value len) (some ⟨1, plen, Config.preset1⟩) n).map (fun p => BitVec.ofNat 32 p.duration) =
      (List.replicate n (repetition value len plen)).flatten := by
  have sync : (enc .sync (some ⟨1, plen, Config.preset1⟩)).map (fun p => BitVec.ofNat 32 p.duration) =
      [plen, syncGap plen] := by
    simp [enc, encPair, syncPair, pulsePair, Params.duration, Config.preset1, syncGap]
  rw [burst_eq_flatten, List.map_flatten, List.map_replicate, codeFrameOps, List.flatMap_append, List.map_append,
    map_duration_bitPulses, List.flatMap_singleton, sync, repetition, repetitionBody, List.append_assoc]
  rfl

/-- The last sync LOW of a burst ends with no edge, so the last repetition is heard without it (R185). -/
theorem dropLast_repetitions (value : BitVec 32) (len : Nat) (plen : BitVec 32) (d : Micros) (n : Nat) :
    (d :: (List.replicate (n + 3) (repetition value len plen)).flatten).dropLast =
      d :: (repetition value len plen ++ (repetition value len plen ++
        ((List.replicate n (repetition value len plen)).flatten ++ repetitionBody value len plen))) := by
  rw [List.replicate_succ', List.flatten_append, List.flatten_singleton]
  nth_rw 2 [repetition]
  rw [List.replicate_succ, List.replicate_succ, ← List.append_assoc, ← List.cons_append, List.dropLast_concat]
  simp

section
variable {value : BitVec 32} {len : Nat} {plen : BitVec 32}

theorem Receivable.syncGap_toNat (h : Receivable value len plen) : (syncGap plen).toNat = 31 * plen.toNat := by
  have high := h.plen_le
  exact Nat.mod_eq_of_lt (by omega)

/-- The bits and the sync HIGH are ORDINARY: 1 or 3 pulse lengths, at most 4998 µs (R210). -/
theorem Receivable.repetitionBody_ordinary (h : Receivable value len plen) :
    ∀ d ∈ repetitionBody value len plen, d.toNat ≤ Config.gapNormal := by
  have bound := h.plen_le
  have short : plen.toNat ≤ 5000 := by omega
  have long : (BitVec.ofNat 32 (3 * plen.toNat)).toNat ≤ 5000 := (Nat.mod_le _ _).trans (by omega)
  have pair (bit : Bool) : (bitPair plen bit).1.toNat ≤ 5000 ∧ (bitPair plen bit).2.toNat ≤ 5000 := by
    cases bit
    · exact ⟨short, long⟩
    · exact ⟨long, short⟩
  simp only [repetitionBody, codeIntervals, pairEntries, List.flatMap_map, List.mem_append, List.mem_flatMap,
    List.mem_cons, List.not_mem_nil, or_false]
  rintro d (⟨bit, -, rfl | rfl⟩ | rfl)
  · exact (pair bit).1
  · exact (pair bit).2
  · exact short

theorem Receivable.foldl_repetitionBody (h : Receivable value len plen) (hs : s.Listens l rpt gap []) :
    ((repetitionBody value len plen).foldl State.hear s).Listens l rpt gap (repetitionBody value len plen) := by
  refine hs.foldl_ordinary h.repetitionBody_ordinary ?_
  have longest := h.len_le
  rw [repetitionBody, List.length_append, length_codeIntervals, List.length_nil, List.length_singleton]
  omega

theorem foldl_repetition (s : State) : (repetition value len plen).foldl State.hear s =
    ((repetitionBody value len plen).foldl State.hear s).hear (syncGap plen) := by
  rw [repetition, List.foldl_append]
  rfl

theorem Receivable.isSync_syncGap (h : Receivable value len plen) : isSync (syncGap plen) (syncGap plen) = true := by
  have low := h.plen_ge
  have high := h.plen_le
  rw [isSync_iff, h.syncGap_toNat, Config.gapLong, Config.gapNormal]
  omega

/-- The first repetition is lost: its sync LOW comes after the long silence and is NOISE (R177, R185). -/
theorem Receivable.firstRepetition (h : Receivable value len plen) (hs : s.Listens l rpt gap [])
    (silence : Config.gapLong ≤ gap.toNat) :
    ((repetition value len plen).foldl State.hear s).Listens l 0 (syncGap plen) [] := by
  have low := h.plen_ge
  have high := h.plen_le
  have long : Config.gapNormal < (syncGap plen).toNat := by
    rw [h.syncGap_toNat, Config.gapNormal]
    omega
  have noSync : isSync (syncGap plen) gap = false := by
    rw [← Bool.not_eq_true, isSync_iff, h.syncGap_toNat]
    simp only [Config.gapLong] at silence ⊢
    omega
  rw [foldl_repetition]
  exact (h.foldl_repetitionBody hs).hear_noise noSync long

/-- What a transmission of the code is decoded to (R207, R210). -/
def receivedResult (value : BitVec 32) (len : Nat) (plen : BitVec 32) : Accepted :=
  { value := value, bitLen := len, delay := plen, frame := syncGap plen :: codeIntervals value len plen }

theorem receivedResult_length (value : BitVec 32) (len : Nat) (plen : BitVec 32) :
    (receivedResult value len plen).frame.length = 2 * len + 1 := by
  rw [receivedResult, List.length_cons, length_codeIntervals]

/-- The second repetition is received: its sync LOW confirms the frame, which decodes to the code (R176, R185, R210).
-/
theorem Receivable.secondRepetition (h : Receivable value len plen) (hs : s.Listens l 0 (syncGap plen) []) :
    ((repetition value len plen).foldl State.hear s).Listens (l.publish (receivedResult value len plen)) 1
      (syncGap plen) [] := by
  have low := h.plen_ge
  have high := h.plen_le
  have minLength := h.len_ge
  have heard := h.foldl_repetitionBody hs
  rw [foldl_repetition]
  have accepted := decodeFrame_codeIntervals (plen := plen) h.inRange (by omega) (by omega) heard.tol
  refine heard.hear_firstSync h.isSync_syncGap ?_ accepted ?_
  · rw [length_codeIntervals, Config.minEdgesHandoff]
    omega
  · rw [receivedResult_length, Config.minIntervalsCommit]
    omega

/-- The repetitions after that commit nothing (R186). -/
theorem Receivable.laterRepetitions (h : Receivable value len plen) (n : Nat) (hs : s.Listens l rpt (syncGap plen) [])
    (later : rpt ≠ 0) :
    ∃ rpt', ((List.replicate n (repetition value len plen)).flatten.foldl State.hear s).Listens l rpt'
      (syncGap plen) [] := by
  induction n generalizing s rpt with
  | zero => exact ⟨rpt, hs⟩
  | succ n ih =>
    have next := (h.foldl_repetitionBody hs).hear_laterSync h.isSync_syncGap later
    rw [List.replicate_succ, List.flatten_cons, List.foldl_append, foldl_repetition]
    exact ih next (satInc_ne_zero rpt)

/-- A burst of at least three repetitions after a silence is received by any receiver of R210. -/
theorem Receivable.burst_received (h : Receivable value len plen) (index : s.IndexInv) (hcap : s.cap = 67)
    (tol : s.rxTol.toNat ≤ 199) (silence : Config.gapLong ≤ d.toNat) (n : Nat) :
    ∃ l : Latch,
      (((d :: (List.replicate (n + 3) (repetition value len plen)).flatten).dropLast).foldl State.hear s).latch =
        l.publish (receivedResult value len plen) := by
  have long : Config.gapNormal < d.toNat := Nat.lt_of_lt_of_le (by decide) silence
  obtain ⟨l, rpt, opened⟩ := hear_long index hcap tol long
  have committed := h.secondRepetition (h.firstRepetition opened silence)
  obtain ⟨rpt', kept⟩ := h.laterRepetitions n committed (by decide)
  rw [dropLast_repetitions, List.foldl_cons, List.foldl_append, List.foldl_append, List.foldl_append]
  exact ⟨l, (h.foldl_repetitionBody kept).latch⟩

end

/-- Settles O48: the edges of the burst are heard as the silence and the burst's intervals, and the latch then holds
the result of the second repetition. -/
theorem transmittedCodeIsReceived : Obligations.TransmittedCodeIsReceived := by
  intro s value len n plen t0 live index hcap tol len_ge len_le inRange plen_ge plen_le three silence hin
  have ranges : Receivable value len plen := ⟨len_ge, len_le, inRange, plen_ge, plen_le⟩
  obtain ⟨n, rfl⟩ := Nat.exists_eq_add_of_le' three
  have first : t0 = s.cls.lastT + (t0 - s.cls.lastT) := by rw [BitVec.add_comm, BitVec.sub_add_cancel]
  rw [first] at hin
  rw [hin, length_edgeInputs_edgeTimes]
  obtain ⟨t, heard, taken, ran⟩ := run_edgeTimes _ live hin
  rw [map_duration_burst] at heard
  obtain ⟨l, latch⟩ := ranges.burst_received index hcap tol silence n
  rw [← heard] at latch
  refine ⟨t, ran, taken, ?_⟩
  rw [latch]
  refine ⟨rfl, rfl, bitLenField_toNat (show len < 256 by omega), rfl, rfl, ?_⟩
  rw [Latch.publish_rawLen, receivedResult_length, rawLenField_toNat (by omega)]

end Sys2Proof.Machine
end

section
/-! PROOFS. The Receive Result Store (spec/44_result_store.md): the snapshot that COMMIT writes, entry by entry, the latch
it leaves (R230), and the commands that read the latch and clear its flag (R231 to R233). -/

namespace Sys2Proof.Machine

open Sys2Proof

variable {frame old : List Micros}

/-! ### The snapshot array after COMMIT -/

/-- A frame that fits the array stands whole in front of the entries that it does not reach. -/
theorem overlay_eq_append (fits : frame.length ≤ old.length) : overlay frame old = frame ++ old.drop frame.length := by
  rw [overlay, List.take_of_length_le fits]

theorem overlay_getElem?_of_lt (fits : frame.length ≤ old.length) {i : Nat} (inside : i < frame.length) :
    (overlay frame old)[i]? = frame[i]? := by
  rw [overlay_eq_append fits, List.getElem?_append_left inside]

theorem overlay_getElem?_of_le (fits : frame.length ≤ old.length) {i : Nat} (beyond : frame.length ≤ i) :
    (overlay frame old)[i]? = old[i]? := by
  rw [overlay_eq_append fits, List.getElem?_append_right beyond, List.getElem?_drop, Nat.add_sub_of_le beyond]

/-! ### The latch after COMMIT -/

theorem rawLenField_eq_ofNat {n : Nat} (short : n < 256) : rawLenField n = BitVec.ofNat 8 n := if_pos short

theorem bitLenField_eq_ofNat {n : Nat} (short : n < 256) : bitLenField n = BitVec.ofNat 8 n := if_pos short

/-- The latch after COMMIT, written out where both length fields hold their value (R230, log entry 6). -/
theorem publish_eq {r : Accepted} (shortFrame : r.frame.length < 256) (shortCode : r.bitLen < 256) (l : Latch) :
    l.publish r =
      { avail := true, value := r.value, bitLen := BitVec.ofNat 8 r.bitLen, delay := r.delay, proto := 1
        rawLen := BitVec.ofNat 8 r.frame.length, raw := overlay r.frame l.raw } := by
  rw [← rawLenField_eq_ofNat shortFrame, ← bitLenField_eq_ofNat shortCode]
  rfl

/-- Settles O24: COMMIT publishes the passed result, whose snapshot is the frame laid over the array. -/
theorem commitPublishesPassedResult : Obligations.CommitPublishesPassedResult := by
  intro s shortFrame shortCode fits
  have committed : exec .commit s = .next { s with latch := s.latch.publish s.commitArgs } := rfl
  rw [publish_eq shortFrame shortCode] at committed
  exact ⟨overlay s.commitArgs.frame s.latch.raw, committed, overlay_length _ _,
    fun _ inside => overlay_getElem?_of_lt fits inside, fun _ beyond => overlay_getElem?_of_le fits beyond⟩

/-! ### The commands on the latch -/

/-- Settles O22: each command is its response, written out. -/
theorem resultReadsOnlyRespond : Obligations.ResultReadsOnlyRespond :=
  fun _ => ⟨rfl, rfl⟩

/-- Settles O23: the flag is cleared, then the response is given, written out. -/
theorem rxClearClearsOnlyAvail : Obligations.RxClearClearsOnlyAvail :=
  fun _ => rfl

end Sys2Proof.Machine
end

section
/-! PROOFS. Host configuration and receive control (spec/45_host_configuration.md): the pulse length that a protocol id
selects (R251), the registration of the receive pin (R255, R256), and the commands that store their operands. -/

namespace Sys2Proof.Machine

open Sys2Proof

variable {s : State}

/-! ### The commands that store their operands -/

/-- Settles O16: the Port call, the register and the response, written out. -/
theorem setTxPinConfiguresOutput : Obligations.SetTxPinConfiguresOutput :=
  fun _ _ => rfl

/-- Settles O18: each command is its register update and its response, written out. -/
theorem configurationOperandsAreStored : Obligations.ConfigurationOperandsAreStored :=
  fun _ => ⟨fun _ _ => rfl, fun _ => rfl, fun _ => rfl⟩

/-! ### The pulse length of a protocol id (R251) -/

theorem plenAfterProtocol_of_no_preset {id : BitVec 16} (h₁ : id ≠ 1) (h₂ : id ≠ 2) (old : BitVec 32) :
    plenAfterProtocol id old = old := by
  rw [plenAfterProtocol, preset_eq_none h₁ h₂]

/-- The two rows of `PRESET` give their default lengths; an id without a row keeps the old one. -/
theorem plenAfterProtocol_eq (id : BitVec 16) (old : BitVec 32) :
    plenAfterProtocol id old = if id = 1 then 350 else if id = 2 then 650 else old := by
  split_ifs with h₁ h₂
  · subst h₁
    rfl
  · subst h₂
    rfl
  · exact plenAfterProtocol_of_no_preset h₁ h₂ old

/-- Settles O17: SET_PROTOCOL stores the id and the pulse length that the id selects. -/
theorem setProtocolLoadsPresetLength : Obligations.SetProtocolLoadsPresetLength := by
  intro s id
  rw [← plenAfterProtocol_eq]
  rfl

/-! ### The registration of the receive pin (R255, R256) -/

/-- Dropping the old registration is at most one Port call. -/
theorem unregisterIfLive_eq (s : State) :
    s.unregisterIfLive = { s with
      portLog := s.portLog ++ if s.rxCtl.live then [.unregisterEdgeCallback s.rxCtl.pin] else [] } := by
  unfold State.unregisterIfLive
  split
  · rfl
  · rw [List.append_nil]

/-- Settles O19: the old registration is dropped if reception is live, then the two calls on the new pin follow. -/
theorem rxEnableRegistersPin : Obligations.RxEnableRegistersPin := by
  intro s pin
  have ran : exec (.rxEnable pin) s = execRxEnable pin s := rfl
  simp only [ran, execRxEnable, unregisterIfLive_eq, State.callPort, State.respond, List.append_assoc,
    List.cons_append, List.nil_append]

/-- RX_DISABLE while reception is not enabled only responds (R256). -/
theorem exec_rxDisable_of_not_enabled (disabled : s.rxCtl.en = false) :
    exec .rxDisable s = .next (s.respond .none) := by
  have ran : exec .rxDisable s = .next (s.stopReception.respond .none) := rfl
  rw [ran, State.stopReception, disabled]
  rfl

/-- Settles O20: the enabled and the idempotent case. -/
theorem rxDisableUnregistersPin : Obligations.RxDisableUnregistersPin := by
  intro s
  cases hen : s.rxCtl.en with
  | true => exact exec_rxDisable_of_enabled hen
  | false =>
    rw [exec_rxDisable_of_not_enabled hen]
    simp [State.respond]

end Sys2Proof.Machine
end

section
/-! PROOFS. The whole-machine rules of spec/60_exceptions.md: the idle wait (R289), progress on the inputs of the two
agents (R280, R288), and the trace of silent events, which no step reads (R281). -/

namespace Sys2Proof.Machine

open Sys2Proof

variable {s t : State} {i : Instr}

/-! ### The idle wait (R289) -/

theorem sequencerTurn_of_idle (idle : s.seq.busy = false) : s.sequencerTurn = .next s := by
  simp [State.sequencerTurn, idle]

/-- With `POS` past the end there is no step (log entry 12). -/
theorem sequencerTurn_of_overrun (busy : s.seq.busy = true) (overrun : s.seq.pulses.length < s.seq.pos) :
    s.sequencerTurn = .fault .sequencerOverrun := by
  have hnone : s.seq.pulses[s.seq.pos]? = none := List.getElem?_eq_none overrun.le
  simp only [State.sequencerTurn, busy, hnone, if_true, if_neg overrun.ne']

/-- Settles O12: with no input, or a turn first, the step is the sequencer's, and outside a burst it waits. -/
theorem idleBlockWaits : Obligations.IdleBlockWaits := by
  intro s idle
  constructor
  · intro hin
    have hfetch : s.fetch = .sequencer s := by simp [State.fetch, hin]
    rw [step, hfetch]
    exact sequencerTurn_of_idle idle
  · intro rest hin
    have hfetch : s.fetch = .sequencer (s.withInputs rest) := by simp [State.fetch, hin]
    rw [step, hfetch]
    exact sequencerTurn_of_idle (s := s.withInputs rest) idle

/-! ### Progress (R280) -/

/-- No operation stops: a check that fails is a silent no-op (R280). -/
theorem exec_next (i : Instr) (s : State) : ∃ t, exec i s = .next t := by
  cases i with
  | txCode | txTristate => exact ⟨_, (apply_ite Host.Outcome.next _ _ _).symm⟩
  | _ => exact ⟨_, rfl⟩

/-- With `POS` within `PULSES` the sequencer has a step (spec/10_state.md R45). -/
theorem sequencerTurn_next (line : s.LineInv) : ∃ t, s.sequencerTurn = .next t := by
  rcases sequencerTurn_cases s with ⟨-, h⟩ | ⟨p, -, -, h⟩ | ⟨-, -, h⟩ | ⟨busy, overrun, -⟩
  · exact ⟨_, h⟩
  · exact ⟨_, h⟩
  · exact ⟨_, h⟩
  · obtain ⟨-, within, -⟩ := line.burst busy
    exact absurd overrun within.not_gt

/-- Neither named stop is reached: the agents issue no micro-operation, and no burst is past its end. -/
theorem step_next (agents : s.External) (line : s.LineInv) : ∃ t, step s = .next t := by
  rcases step_cases s with ⟨h, -⟩ | ⟨rest, -, h⟩ | ⟨c, rest, i, -, -, -, h⟩ | ⟨w, rest, e, -, -, -, h⟩ |
    ⟨u, rest, hin, -, -, -⟩
  · rw [h]
    exact sequencerTurn_next line
  · rw [h]
    exact sequencerTurn_next (line.congr rfl rfl)
  · rw [h]
    exact exec_next i _
  · exact ⟨_, h⟩
  · -- A micro-operation stands first, which neither agent issues.
    simp [State.External, hin, Input.external] at agents

/-! ### The inputs that a step leaves -/

theorem decodeClosed_inputs (s : State) (frame : List Micros) : (s.decodeClosed frame).inputs = s.inputs := by
  rcases decodeClosed_cases s frame with ⟨e, h⟩ | ⟨r, -, -, h⟩ <;> rw [h]
  rfl

theorem deliverEdge_inputs (s : State) (τ : Micros) : (s.deliverEdge τ).inputs = s.inputs := by
  rcases deliverEdge_cases s τ with ⟨-, h⟩ | ⟨-, h⟩ <;> rw [h]
  exact classify_inputs _ _

theorem stopReception_inputs (s : State) : s.stopReception.inputs = s.inputs := by
  unfold State.stopReception
  split <;> rfl

theorem exec_transmit_inputs (hi : IsTransmit i) (h : exec i s = .next t) : t.inputs = s.inputs := by
  rcases exec_transmit_cases hi h with ⟨e, rfl⟩ | ⟨ops, -, -, rfl⟩
  · rfl
  · exact startBurst_inputs s _

theorem encode_inputs (s : State) (op : EncOp) : (s.encode op).inputs = s.inputs := by
  rw [State.encode, emitPulses_eq]

/-- No operation writes the inputs yet to come (spec/20_memory.md R77). -/
theorem exec_inputs (h : exec i s = .next t) : t.inputs = s.inputs := by
  by_cases encoder : .txLevel ∈ footprint i
  · obtain ⟨op, rfl⟩ := txLevel_mem_footprint encoder
    rw [exec_encOp] at h
    cases h
    exact encode_inputs s op
  · cases i with
    | emitBit0 | emitBit1 | emitSync | emitSymZero | emitSymFloat | emitSym10 | emitSymOne =>
      simp [footprint] at encoder
    | txCode value len => exact exec_transmit_inputs (.inl ⟨_, _, rfl⟩) h
    | txTristate packed count => exact exec_transmit_inputs (.inr ⟨_, _, rfl⟩) h
    | rxEnable pin =>
      cases h
      rw [unregisterIfLive_eq]
      rfl
    | rxDisable =>
      cases h
      exact stopReception_inputs s
    | decode =>
      cases h
      exact decodeClosed_inputs s _
    | edge τ =>
      cases h
      exact deliverEdge_inputs s τ
    | setTxPin | setProtocol | setProtocolPl | setRepeat | setRxTolerance | rxAvailable | rxTake | rxClear | commit =>
      cases h
      rfl

theorem State.TurnLeaves.suffix {rest : List Input} (left : s.TurnLeaves rest) : rest <:+ s.inputs := by
  rcases left with h | h <;> rw [h]
  exact List.suffix_cons _ _

/-- A step takes inputs from the front and adds none. -/
theorem stepTo_inputs (h : StepTo s t) : t.inputs <:+ s.inputs := by
  cases h with
  | wait rest left => exact left.suffix
  | pulse rest p left => exact left.suffix
  | burstEnd rest left =>
    rw [endBurst_eq]
    exact left.suffix
  | operation c rest i _ taken _ _ ran =>
    rw [exec_inputs ran, taken]
    exact List.suffix_cons _ _
  | reserved w rest taken =>
    rw [taken]
    exact List.suffix_cons _ _

theorem State.External.of_suffix (agents : s.External) (suffix : t.inputs <:+ s.inputs) : t.External :=
  List.all_eq_true.mpr fun x hx => List.all_eq_true.mp agents x (suffix.subset hx)

/-- Settles O55: there is a step, and the inputs it leaves are a suffix of the inputs there were. -/
theorem noStepStopsOnAgentInputs : Obligations.NoStepStopsOnAgentInputs := by
  intro s agents line
  obtain ⟨t, h⟩ := step_next agents line
  exact ⟨t, h, agents.of_suffix (stepTo_inputs (stepTo_of_step h))⟩

/-! ### The shared operations and the trace (R281) -/

theorem startBurst_withoutEvents (s : State) (ps : List Pulse) :
    (s.startBurst ps).withoutEvents = (s.withoutEvents.startBurst ps).withoutEvents := by
  rw [startBurst_eq, startBurst_eq]
  rfl

theorem endBurst_withoutEvents (s : State) : s.endBurst.withoutEvents = s.withoutEvents.endBurst.withoutEvents := by
  rw [endBurst_eq, endBurst_eq]
  rfl

theorem encode_withoutEvents (s : State) (op : EncOp) :
    (s.encode op).withoutEvents = (s.withoutEvents.encode op).withoutEvents := by
  simp only [State.encode, emitPulses_eq]
  rfl

/-- Two branches on one test agree without the trace when each pair does. -/
theorem ite_withoutEvents {p : Prop} [Decidable p] {a b a' b' : State} (ha : a.withoutEvents = a'.withoutEvents)
    (hb : b.withoutEvents = b'.withoutEvents) :
    (if p then a else b).withoutEvents = (if p then a' else b').withoutEvents := by
  split
  · exact ha
  · exact hb

/-- The effect of RX_DISABLE is chosen by `RXCTL.EN` (spec/45_host_configuration.md R256). -/
theorem stopReception_withoutEvents (s : State) :
    s.stopReception.withoutEvents = s.withoutEvents.stopReception.withoutEvents :=
  ite_withoutEvents rfl rfl

/-- The checks of a transmit command read the configuration only (spec/41_transmission_controller.md R143). -/
theorem transmit_withoutEvents (s : State) (ops : List EncOp) :
    (s.transmit ops).withoutEvents = (s.withoutEvents.transmit ops).withoutEvents :=
  ite_withoutEvents (ite_withoutEvents rfl (startBurst_withoutEvents s _)) rfl

/-- The verdict of DECODE is read from the frame and the tolerance (spec/43_protocol_decoder.md R200). -/
theorem decodeClosed_withoutEvents (s : State) (frame : List Micros) :
    (s.decodeClosed frame).withoutEvents = (s.withoutEvents.decodeClosed frame).withoutEvents := by
  simp only [State.decodeClosed, State.withoutEvents_rxTol]
  cases decodeFrame s.rxTol frame with
  | none => rfl
  | some r => exact ite_withoutEvents rfl rfl

/-- The branch of an interval is read from the classifier and `CAP` (spec/42_edge_classifier.md R173). -/
theorem classify_withoutEvents (s : State) (d : Micros) :
    (s.classify d).withoutEvents = (s.withoutEvents.classify d).withoutEvents := by
  have handoff := decodeClosed_withoutEvents { s with cls := s.cls.countSync } s.cls.closedFrame
  rw [classify_eq, classify_eq]
  refine ite_withoutEvents (ite_withoutEvents ?_ rfl) (ite_withoutEvents rfl (ite_withoutEvents rfl rfl))
  exact congrArg (fun u : State => { u with cls := s.cls.countSync.openFrame d }) handoff

/-- Whether an edge is delivered is read from `RXCTL.LIVE` (spec/42_edge_classifier.md R170). -/
theorem deliverEdge_withoutEvents (s : State) (τ : Micros) :
    (s.deliverEdge τ).withoutEvents = (s.withoutEvents.deliverEdge τ).withoutEvents :=
  ite_withoutEvents (classify_withoutEvents (s.stamped τ) (s.cls.interval τ)) rfl

/-! ### A step and the trace (R281) -/

/-- Two states that agree without the trace are one outcome without it. -/
theorem outcomeWithoutEvents_next (h : s.withoutEvents = t.withoutEvents) :
    outcomeWithoutEvents (.next s) = outcomeWithoutEvents (.next t) :=
  congrArg Host.Outcome.next h

/-- A transmit command whose operand passes or fails its range check. -/
theorem rangeChecked_transmit_withoutEvents (p : Prop) [Decidable p] (s : State) (ops : List EncOp) :
    outcomeWithoutEvents (if p then .next s.operandOutOfRange else .next (s.transmit ops)) =
      outcomeWithoutEvents
        (if p then .next s.withoutEvents.operandOutOfRange else .next (s.withoutEvents.transmit ops)) := by
  split
  · rfl
  · exact outcomeWithoutEvents_next (transmit_withoutEvents s ops)

/-- No operation reads the trace. -/
theorem exec_withoutEvents (i : Instr) (s : State) :
    outcomeWithoutEvents (exec i s) = outcomeWithoutEvents (exec i s.withoutEvents) := by
  by_cases encoder : .txLevel ∈ footprint i
  · obtain ⟨op, rfl⟩ := txLevel_mem_footprint encoder
    rw [exec_encOp, exec_encOp]
    exact outcomeWithoutEvents_next (encode_withoutEvents s op)
  · cases i with
    | emitBit0 | emitBit1 | emitSync | emitSymZero | emitSymFloat | emitSym10 | emitSymOne =>
      simp [footprint] at encoder
    | txCode value len => exact rangeChecked_transmit_withoutEvents _ s _
    | txTristate packed count => exact rangeChecked_transmit_withoutEvents _ s _
    | rxEnable pin =>
      rw [rxEnableRegistersPin, rxEnableRegistersPin]
      rfl
    | rxDisable => exact outcomeWithoutEvents_next (congrArg (State.respond · .none) (stopReception_withoutEvents s))
    | decode => exact outcomeWithoutEvents_next (decodeClosed_withoutEvents s s.cls.closedFrame)
    | edge τ => exact outcomeWithoutEvents_next (deliverEdge_withoutEvents s τ)
    | setTxPin | setProtocol | setProtocolPl | setRepeat | setRxTolerance | rxAvailable | rxTake | rxClear | commit =>
      rfl

/-- The choice of the next step without the trace of silent events. -/
def Action.withoutEvents : Action → Action
  | .run i s => .run i s.withoutEvents
  | .sequencer s => .sequencer s.withoutEvents
  | .reserved s => .reserved s.withoutEvents
  | .badMicro u => .badMicro u

theorem takeCode_withoutEvents (s : State) (c : Code) (rest : List Input) :
    s.withoutEvents.takeCode c rest = (s.takeCode c rest).withoutEvents := by
  unfold State.takeCode
  cases decodeCode c with
  | ok i => rfl
  | error e => cases e <;> rfl

/-- Which agent steps, and with what, does not depend on the trace (spec/20_memory.md R77). -/
theorem fetch_withoutEvents (s : State) : s.withoutEvents.fetch = s.fetch.withoutEvents := by
  have waits (c : Code) (rest : List Input) :
      (if s.seq.busy then .sequencer s.withoutEvents else s.withoutEvents.takeCode c rest) =
        (if s.seq.busy then .sequencer s else s.takeCode c rest : Action).withoutEvents := by
    split
    · rfl
    · exact takeCode_withoutEvents s c rest
  simp only [State.fetch, State.withoutEvents_inputs]
  match s.inputs with
  | [] => rfl
  | .turn :: rest => rfl
  | .code (.edge τ) :: rest => exact takeCode_withoutEvents s (.edge τ) rest
  | .code (.host w) :: rest => exact waits (.host w) rest
  | .code (.micro u) :: rest => exact waits (.micro u) rest

/-- The sequencer's turn is read from `TXSEQ` (spec/10_state.md R45). -/
theorem sequencerTurn_withoutEvents (s : State) :
    outcomeWithoutEvents s.sequencerTurn = outcomeWithoutEvents s.withoutEvents.sequencerTurn := by
  rcases sequencerTurn_cases s with ⟨idle, h⟩ | ⟨p, busy, at_pos, h⟩ | ⟨busy, at_end, h⟩ | ⟨busy, overrun, h⟩
  · rw [h, sequencerTurn_of_idle (s := s.withoutEvents) idle]
    rfl
  · rw [h, sequencerTurn_of_pulse (s := s.withoutEvents) busy at_pos]
    rfl
  · rw [h, sequencerTurn_of_end (s := s.withoutEvents) busy at_end]
    exact outcomeWithoutEvents_next (endBurst_withoutEvents s)
  · rw [h, sequencerTurn_of_overrun (s := s.withoutEvents) busy overrun]

/-- Settles O58: the choice of the step does not read the trace, nor does what the step then does. -/
theorem eventTraceIsNeverRead : Obligations.EventTraceIsNeverRead := by
  intro s
  rw [step, step, fetch_withoutEvents]
  cases s.fetch with
  | run i u => exact exec_withoutEvents i u
  | sequencer u => exact sequencerTurn_withoutEvents u
  | reserved u => rfl
  | badMicro u => rfl

end Sys2Proof.Machine
end

section
/-! PROOFS. The reset state (spec/70_reset_and_hazards.md R320, R321): the registers it holds, the first steps from it, and
the invariants of the model at it, the base case of the step lemmas on them. -/

namespace Sys2Proof.Machine

open Sys2Proof

/-! ### The registers at reset (R320) -/

/-- Settles O1: register by register, the default of `RXTOL` and the size of the arrays being the parameters of the block
(spec/00_scope.md R7). -/
theorem resetLeavesSpecValues : Obligations.ResetLeavesSpecValues :=
  ⟨rfl, rfl, rfl, rfl, rfl, rfl, rfl, rfl, rfl, rfl⟩

/-! ### The first step from reset (R321, R289, R170) -/

/-- An edge that runs while reception is not live is lost. -/
theorem exec_edge_of_not_live {s : State} (notLive : s.rxCtl.live = false) (τ : Micros) :
    exec (.edge τ) s = .next s :=
  congrArg Host.Outcome.next (deliverEdge_lost τ notLive)

/-- Settles O2: the block is idle at reset with no input to take, and reception is not live. -/
theorem resetMakesNoPortCallAndWaits : Obligations.ResetMakesNoPortCallAndWaits := by
  have idle : State.reset.seq.busy = false := rfl
  have notLive : State.reset.rxCtl.live = false := rfl
  obtain ⟨waits, -⟩ := idleBlockWaits State.reset idle
  exact ⟨rfl, waits rfl, exec_edge_of_not_live notLive⟩

/-! ### The invariants at reset -/

/-- Both arrays have `CAP` entries, the default, and the frame, the snapshot and the passed operands are empty. -/
theorem reset_indexInv : State.reset.IndexInv where
  cap_pos := by decide
  timings_length := List.length_replicate
  cc_le := Nat.zero_le _
  raw_length := List.length_replicate
  rawLen_le := Nat.zero_le _
  args_le := Nat.zero_le _

/-- No frame candidate is open. -/
theorem reset_frameInv : State.reset.FrameInv := frameInv_of_cc_le_one (Nat.zero_le 1)

/-- Reception is neither enabled nor live, and no burst is in progress. -/
theorem reset_receptionInv : State.reset.ReceptionInv where
  idle _ := ⟨rfl, rfl⟩
  burst := nofun

theorem reset_lineInv : State.reset.LineInv where
  idle _ := rfl
  burst := nofun

/-- No COMMIT has written the latch. -/
theorem reset_latchInv : State.reset.LatchInv := .inl ⟨rfl, rfl, rfl, rfl, rfl, rfl⟩

theorem reset_external : State.reset.External := List.all_nil

/-- Settles O49: each invariant holds at reset. -/
theorem resetMeetsInvariants : Obligations.ResetMeetsInvariants :=
  ⟨reset_indexInv, reset_frameInv, reset_receptionInv, reset_lineInv, reset_latchInv, reset_external⟩

end Sys2Proof.Machine
end
